-- ==== Sys2Proof/Word.lean ====
section
/-!
DEFINITION. The widths of the block (R6, R10, R32, R70, R74, R76) and the inputs a step can take (R70, R79).
-/

namespace Sys2Proof

/-- A signal line or a one-bit field (R20). -/
abbrev Bit := BitVec 1

/-- What a port access moves (R56). -/
abbrev Byte := BitVec 8

/-- The register index of a port transaction, `t[23:8]` (R70, R71). -/
abbrev RegIndex := BitVec 16

/-- A logical or physical flash address (R6, R51). -/
abbrev FlashAddr := BitVec 24

/-- A bank-control code (R76). -/
abbrev BankCode := BitVec 4

/-- A mask pattern: three symbols of two bits, symbol 0 uppermost (R74). -/
abbrev Pattern := BitVec 6

/-- A host transaction word (R70). -/
abbrev TransWord := BitVec 26

/-- What the fault record keeps of the first faulting operation's input (R32). -/
abbrev FaultInfo := BitVec 30

/-- A legal symbol of a mask pattern (R12): the source's `'0'`, `'1'` and `'X'`. -/
inductive Symbol where
  | force0
  | force1
  | pass
  deriving DecidableEq, Repr

/-- What can be presented to the block. A transaction word comes from the host; the other two are the inputs of the
sub-blocks, each in a format of its own, reached directly by tests only (R8, R79, D22). -/
inductive Input where
  | transaction (t : TransWord)
  | maskInput (x : BitVec 30)
  | bankInput (c : BankCode)
  deriving DecidableEq, Repr

end Sys2Proof
end

