-- ==== Sys2Proof/Syntax.lean ====
section
/-!
DEFINITION. The operations of the block: one constructor per row of spec/opcode_table.json (R79).
-/

namespace Sys2Proof

/-- The operations. A field that the operation ignores or that only a fault record keeps (the data byte of a read, the
payload of a reserved word) stays in the syntax, because the fault record holds the word as it came (R180). -/
inductive Instr where
  /-- WR0, register-0 write with `data[7:3] = 0` (R120). -/
  | wr0 (led : BitVec 3)
  /-- WR0_RSV, register-0 write with a reserved bit set (R121). -/
  | wr0Rsv (data : Byte)
  /-- WR1, register-1 write with `data[7] = 0` (R122). -/
  | wr1 (clock chipSelect dataIn : Bit) (bank : BankCode)
  /-- WR1_RSV, register-1 write with `data[7] = 1` (R124). -/
  | wr1Rsv (data : BitVec 7)
  /-- WR_UNKNOWN, port write to an index other than 0 and 1 (R125). -/
  | wrUnknown (idx : RegIndex) (data : Byte)
  /-- RD0, register-0 read (R140). -/
  | rd0 (data : Byte)
  /-- RD1, register-1 read (R141). -/
  | rd1 (data : Byte)
  /-- RD_UNKNOWN, port read of an index other than 0 and 1 (R144). -/
  | rdUnknown (idx : RegIndex) (data : Byte)
  /-- XLAT, flash address translation (R160). -/
  | xlat (addr : FlashAddr)
  /-- RESERVED_KIND3, a word of kind 0b11 (R72, R80). -/
  | reservedKind3 (payload : BitVec 24)
  /-- APPLY_MASK, direct use of the AddressMasker (R100). -/
  | applyMask (p : Pattern) (addr : FlashAddr)
  /-- MASK_FOR_BANK, direct use of the BankTable (R104). -/
  | maskForBank (code : BankCode)
  deriving DecidableEq, Repr

end Sys2Proof
end

