-- ==== Sys2Proof/WellFormed.lean ====
section
/-!
DEFINITION. Which terms of `Instr` some input spells: the rows of lower priority in R79 apply only where no row above does.
-/

namespace Sys2Proof

/-- `true` for the operations that the opcode map can select. WR0_RSV needs a reserved bit (R121), the unknown-register
rows need an index of 2 or more (R125, R144); every other row admits all its operands. -/
def wellFormed : Instr → Bool
  | .wr0 _ => true
  | .wr0Rsv data => data.extractLsb' 3 5 != 0
  | .wr1 _ _ _ _ => true
  | .wr1Rsv _ => true
  | .wrUnknown idx _ => decide (2 ≤ idx)
  | .rd0 _ => true
  | .rd1 _ => true
  | .rdUnknown idx _ => decide (2 ≤ idx)
  | .xlat _ => true
  | .reservedKind3 _ => true
  | .applyMask _ _ => true
  | .maskForBank _ => true

end Sys2Proof
end

