-- ==== Sys2Proof/Decode.lean ====
section
/-!
DEFINITION. Decoding of inputs (R70 to R79), the encoder written from the same formats, and the assembler notation
(R83, R84). Decoding is total: every 26-bit word is spelled by a row of the opcode map, kind 0b11 included. What is no
input of the block at all is rejected by name (`InputReject`).
-/

namespace Sys2Proof

/-! ### Formats (R70) -/

/-- A port-read word `{0b00, idx, data}` (R70). -/
def portReadWord (idx : RegIndex) (data : Byte) : TransWord := 0b00#2 ++ idx ++ data

/-- A port-write word `{0b01, idx, data}` (R70). -/
def portWriteWord (idx : RegIndex) (data : Byte) : TransWord := 0b01#2 ++ idx ++ data

/-- A translate word `{0b10, addr}` (R70). -/
def translateWord (addr : FlashAddr) : TransWord := 0b10#2 ++ addr

/-- A word of the reserved kind, `{0b11, payload}` (R72). -/
def reservedWord (payload : BitVec 24) : TransWord := 0b11#2 ++ payload

/-- The sub-block input of APPLY_MASK, `{p, addr}` (R79, R100). -/
def maskInputWord (p : Pattern) (addr : FlashAddr) : BitVec 30 := p ++ addr

/-- The byte of a register-0 write, `data[2:0]` the LED bits (R77). -/
def reg0Byte (led : BitVec 3) : Byte := 0#5 ++ led

/-- The byte of a legal register-1 write (R78). -/
def reg1Byte (clock chipSelect dataIn : Bit) (bank : BankCode) : Byte :=
  0#1 ++ clock ++ chipSelect ++ dataIn ++ bank

/-- The byte of a register-1 write with the reserved bit 7 set (R124). -/
def reg1RsvByte (data : BitVec 7) : Byte := 1#1 ++ data

/-- The register index of a port word, `t[23:8]` (R70). -/
def wordIndex (t : TransWord) : RegIndex := t.extractLsb' 8 16

/-- The data byte of a port word, `t[7:0]` (R70). -/
def wordData (t : TransWord) : Byte := t.extractLsb' 0 8

/-! ### The opcode map (R79) -/

/-- Does the word `t` fit the row with this match and mask? (R79) -/
def hitsRow (t fixed mask : TransWord) : Bool := t &&& mask == fixed

/-- The operation of a transaction word: the first row of R79, in priority order, that the word fits. The row
`RD_UNKNOWN` (match 0x0000000, mask 0x3000000) stands last, without a test, since every word not of kind 0b00 has been
taken by a row above it. -/
def decodeTransaction (t : TransWord) : Instr :=
  if hitsRow t 0x1000000#26 0x3FFFFF8#26 then .wr0 (t.extractLsb' 0 3)
  else if hitsRow t 0x1000100#26 0x3FFFF80#26 then
    .wr1 (t.extractLsb' 6 1) (t.extractLsb' 5 1) (t.extractLsb' 4 1) (t.extractLsb' 0 4)
  else if hitsRow t 0x1000180#26 0x3FFFF80#26 then .wr1Rsv (t.extractLsb' 0 7)
  else if hitsRow t 0x0000000#26 0x3FFFF00#26 then .rd0 (wordData t)
  else if hitsRow t 0x0000100#26 0x3FFFF00#26 then .rd1 (wordData t)
  else if hitsRow t 0x2000000#26 0x3000000#26 then .xlat (t.extractLsb' 0 24)
  else if hitsRow t 0x3000000#26 0x3000000#26 then .reservedKind3 (t.extractLsb' 0 24)
  else if hitsRow t 0x1000000#26 0x3FFFF00#26 then .wr0Rsv (wordData t)
  else if hitsRow t 0x1000000#26 0x3000000#26 then .wrUnknown (wordIndex t) (wordData t)
  else .rdUnknown (wordIndex t) (wordData t)

/-- The operation an input selects: a transaction word by the opcode map, and every value of a sub-block's input that
sub-block's operation (R79). -/
def decode : Input → Instr
  | .transaction t => decodeTransaction t
  | .maskInput x => .applyMask (x.extractLsb' 24 6) (x.extractLsb' 0 24)
  | .bankInput c => .maskForBank c

/-! ### The opcode table as data (R79), for statements about the decoder -/

/-- A row of R79. -/
structure OpcodeRow where
  mnemonic : String
  priority : Nat
  fixed    : TransWord
  mask     : TransWord
  deriving DecidableEq, Repr

/-- The ten transaction rows of R79, in the order it lists them (which is not the priority order). -/
def opcodeRows : List OpcodeRow :=
  [ { mnemonic := "WR0", priority := 1, fixed := 0x1000000#26, mask := 0x3FFFFF8#26 },
    { mnemonic := "WR0_RSV", priority := 2, fixed := 0x1000000#26, mask := 0x3FFFF00#26 },
    { mnemonic := "WR1", priority := 1, fixed := 0x1000100#26, mask := 0x3FFFF80#26 },
    { mnemonic := "WR1_RSV", priority := 1, fixed := 0x1000180#26, mask := 0x3FFFF80#26 },
    { mnemonic := "WR_UNKNOWN", priority := 3, fixed := 0x1000000#26, mask := 0x3000000#26 },
    { mnemonic := "RD0", priority := 1, fixed := 0x0000000#26, mask := 0x3FFFF00#26 },
    { mnemonic := "RD1", priority := 1, fixed := 0x0000100#26, mask := 0x3FFFF00#26 },
    { mnemonic := "RD_UNKNOWN", priority := 3, fixed := 0x0000000#26, mask := 0x3000000#26 },
    { mnemonic := "XLAT", priority := 1, fixed := 0x2000000#26, mask := 0x3000000#26 },
    { mnemonic := "RESERVED_KIND3", priority := 1, fixed := 0x3000000#26, mask := 0x3000000#26 } ]

/-- The table's name of an operation. -/
def Instr.mnemonic : Instr → String
  | .wr0 _ => "WR0"
  | .wr0Rsv _ => "WR0_RSV"
  | .wr1 _ _ _ _ => "WR1"
  | .wr1Rsv _ => "WR1_RSV"
  | .wrUnknown _ _ => "WR_UNKNOWN"
  | .rd0 _ => "RD0"
  | .rd1 _ => "RD1"
  | .rdUnknown _ _ => "RD_UNKNOWN"
  | .xlat _ => "XLAT"
  | .reservedKind3 _ => "RESERVED_KIND3"
  | .applyMask _ _ => "APPLY_MASK"
  | .maskForBank _ => "MASK_FOR_BANK"

/-! ### The encoder -/

/-- The input that spells an operation (R70, R77 to R79). -/
def encode : Instr → Input
  | .wr0 led => .transaction (portWriteWord 0 (reg0Byte led))
  | .wr0Rsv data => .transaction (portWriteWord 0 data)
  | .wr1 clock chipSelect dataIn bank => .transaction (portWriteWord 1 (reg1Byte clock chipSelect dataIn bank))
  | .wr1Rsv data => .transaction (portWriteWord 1 (reg1RsvByte data))
  | .wrUnknown idx data => .transaction (portWriteWord idx data)
  | .rd0 data => .transaction (portReadWord 0 data)
  | .rd1 data => .transaction (portReadWord 1 data)
  | .rdUnknown idx data => .transaction (portReadWord idx data)
  | .xlat addr => .transaction (translateWord addr)
  | .reservedKind3 payload => .transaction (reservedWord payload)
  | .applyMask p addr => .maskInput (maskInputWord p addr)
  | .maskForBank code => .bankInput code

/-! ### Inputs as the opcode table numbers them -/

/-- Why a number of a given width is no input of the block. -/
inductive InputReject where
  /-- No format of R70 or R79 has this width. Safe: nothing is decoded. -/
  | unknownWidth (nbits : Nat)
  /-- The number has bits above the format's width (26, 30 or 4 bits, R82). Safe: nothing is decoded. -/
  | bitsAboveFormat (nbits w : Nat)
  deriving DecidableEq, Repr

/-- The input that a row's bits `w` stand for, by the row's width `nbits`, exact (26, 30, 4) or in whole bytes (32, 8).
A transaction word and an APPLY_MASK input both take four bytes; of such numbers those below 2^26 are transaction words
(DESIGN CHOICE, log 10; unsafe for nothing but this numbering: in the machine the two are different inputs). -/
def tableInput (nbits w : Nat) : Except InputReject Input :=
  if nbits = 26 then
    if w < 2 ^ 26 then .ok (.transaction (BitVec.ofNat 26 w)) else .error (.bitsAboveFormat nbits w)
  else if nbits = 30 then
    if w < 2 ^ 30 then .ok (.maskInput (BitVec.ofNat 30 w)) else .error (.bitsAboveFormat nbits w)
  else if nbits = 32 then
    if w < 2 ^ 26 then .ok (.transaction (BitVec.ofNat 26 w))
    else if w < 2 ^ 30 then .ok (.maskInput (BitVec.ofNat 30 w))
    else .error (.bitsAboveFormat nbits w)
  else if nbits = 4 ∨ nbits = 8 then
    if w < 2 ^ 4 then .ok (.bankInput (BitVec.ofNat 4 w)) else .error (.bitsAboveFormat nbits w)
  else .error (.unknownWidth nbits)

/-- The operation the decoder reads from a row's bits, none where they are no input of the block. -/
def decodeTableWord (nbits w : Nat) : Option Instr :=
  match tableInput nbits w with
  | .ok x => some (decode x)
  | .error _ => none

/-! ### The symbols of a pattern (R74) -/

/-- The two bits `{force, value}` of a symbol (R74). -/
def symbolBits : Symbol → BitVec 2
  | .pass => 0b00#2
  | .force0 => 0b10#2
  | .force1 => 0b11#2

/-- The symbol two bits stand for; 0b01 stands for none (R74). -/
def symbolOfBits (b : BitVec 2) : Option Symbol :=
  if b = 0b00#2 then some .pass
  else if b = 0b10#2 then some .force0
  else if b = 0b11#2 then some .force1
  else none

/-- A pattern written left to right, symbol 0 first (R12, R74). -/
def patternOf (s0 s1 s2 : Symbol) : Pattern := symbolBits s0 ++ symbolBits s1 ++ symbolBits s2

/-! ### Assembler notation (R83, R84; the spec's decision D17) -/

/-- `IN r` (R83). -/
def asmIn (r : RegIndex) : Input := .transaction (portReadWord r 0)

/-- `OUT r, v` (R83). -/
def asmOut (r : RegIndex) (v : Byte) : Input := .transaction (portWriteWord r v)

/-- `XLAT a` (R83). -/
def asmXlat (a : FlashAddr) : Input := .transaction (translateWord a)

/-- The symbol bits of a source character: any character outside `'0'`, `'1'`, `'X'` has the illegal code 0b01 (R74). -/
def charBits (c : Char) : BitVec 2 :=
  if c = 'X' then symbolBits .pass
  else if c = '0' then symbolBits .force0
  else if c = '1' then symbolBits .force1
  else 0b01#2

/-- `APPLY_MASK a, "s0s1s2"` (R83). -/
def asmApplyMask (a : FlashAddr) (s0 s1 s2 : Char) : Input :=
  .maskInput (maskInputWord (charBits s0 ++ charBits s1 ++ charBits s2) a)

/-- `MASK_FOR_BANK c` (R83). -/
def asmMaskForBank (c : BankCode) : Input := .bankInput c

/-- `LED r, g, b`: `OUT 0, (b << 2) | (g << 1) | r` (R84). -/
def asmLed (r g b : Bit) : Input :=
  asmOut 0 ((b.setWidth 8 <<< 2) ||| (g.setWidth 8 <<< 1) ||| r.setWidth 8)

/-- `SELBANK c`: `OUT 1, c & 0xF`; it also writes 0 to the three SPI lines (R84). -/
def asmSelBank (c : BankCode) : Input := asmOut 1 (c.setWidth 8 &&& 0x0F#8)

/-- `SPI k, s, d, c`: `OUT 1, (k << 6) | (s << 5) | (d << 4) | (c & 0xF)` (R84). -/
def asmSpi (k s d : Bit) (c : BankCode) : Input :=
  asmOut 1 ((k.setWidth 8 <<< 6) ||| (s.setWidth 8 <<< 5) ||| (d.setWidth 8 <<< 4) ||| (c.setWidth 8 &&& 0x0F#8))

/-- `DETECT`: `IN 0` (R84). -/
def asmDetect : Input := asmIn 0

end Sys2Proof
end

