-- ==== Sys2Proof/Config.lean ====
section
/-!
DEFINITION. What the spec leaves open: the parameters of R7 and the free values (draws) of R29 to R31, R184 and R185.
A parameter is fixed for the device's lifetime (R44); a free value has no body, so nothing can be proved of it.
-/

namespace Sys2Proof.Config

/-- When bank codes 11 to 15 are rejected (R7, D5). -/
inductive BankValidation where
  /-- `LAZY`: stored at the write, rejected at translation (R25, R163). -/
  | lazy
  /-- `EAGER`: rejected at the register-1 write (R123). -/
  | eager
  deriving DecidableEq, Repr

/-- What the host does after a fault (R7, D8). -/
inductive OnFault where
  /-- `HALT`: no further step (R187). -/
  | halting
  /-- `CONTINUE`: later transactions run as if no fault had happened (R188). -/
  | continuing
  deriving DecidableEq, Repr

/-- What the two data-out lines read as (R7, D10). -/
inductive DoutSource where
  /-- `ZERO`: both read 0 (R30, R31). -/
  | zero
  /-- `EXTERNAL`: the level of the input line at the read, a draw (R30, R31). -/
  | line
  deriving DecidableEq, Repr

/-- What the recovery flag of a register-1 read is (R7, D11). -/
inductive RecoverySource where
  /-- `HELD`: the stored field (R28). -/
  | held
  /-- `EXTERNAL`: the level of the input line at the read, a draw (R29). -/
  | line
  deriving DecidableEq, Repr

/-- The parameters of R7 but for `BASE_PORT`. The machine's state carries them (DESIGN CHOICE, log 1; safe), so that
every statement over all states is a statement over all settings. -/
structure Params where
  bankValidation : BankValidation
  onFault        : OnFault
  doutSource     : DoutSource
  recoverySource : RecoverySource
  deriving DecidableEq, Repr

/-- The defaults of R7. -/
def Params.default : Params where
  bankValidation := .lazy
  onFault := .halting
  doutSource := .line
  recoverySource := .held

/-- `BASE_PORT`, the I/O port address the host assigns: OPEN, no default (R7, R59, D16; log 1). -/
opaque basePort : Nat

/-- The level of the input `DOUT1` while the n-th transaction runs: a free value (R30, R42; log 3). -/
opaque dataOut1Level (n : Nat) : Bit

/-- The level of the input `DOUT4` while the n-th transaction runs: a free value, independent of `DOUT1` (R31, R42; log 3). -/
opaque dataOut4Level (n : Nat) : Bit

/-- The level of the input `RECOVERY_N` while the n-th transaction runs: a free value (R29, R42; log 3). -/
opaque recoveryLevel (n : Nat) : Bit

/-- The byte a faulting port read returns under `CONTINUE`: a free value (R184; log 4). -/
opaque freeByte (n : Nat) : Byte

/-- The address a faulting translation presents with `valid = 0`: a free value (R185; log 4). -/
opaque freeAddress (n : Nat) : FlashAddr

end Sys2Proof.Config
end

