-- ==== Sys2Proof/Machine/State.lean ====
section
/-!
DEFINITION. The state of the block (R20), the outcomes' reasons, and the state right after attach (R210).
The block holds no memory (R50) and has no program counter (R36): State has neither.
-/

namespace Sys2Proof.Machine

/-- The seven fault causes (R180). A device fault does not stop the model: it is taken, as an update of the fault record
(R182, R190), and the next state carries it. -/
inductive FaultCause where
  /-- Code 1: register-0 write with any of bits 7 to 3 set (R121). -/
  | reg0ReservedBits
  /-- Code 2: register-1 write with bit 7 set (R124). -/
  | reg1ReservedBit
  /-- Code 3: write to an index other than 0 and 1 (R125). -/
  | unknownRegisterWrite
  /-- Code 4: read of an index other than 0 and 1 (R144). -/
  | unknownRegisterRead
  /-- Code 5: bank code 11 to 15 at translation or lookup (R104, R160). -/
  | undefinedBank
  /-- Code 6: under `EAGER`, register-1 write with bank code 11 to 15 (R123). -/
  | writeUndefinedBank
  /-- Code 7: a pattern symbol 0b01 (R100). -/
  | invalidPatternSymbol
  deriving DecidableEq, Repr

/-- One entry of `fault_log` (R182). -/
structure FaultEntry where
  cause : FaultCause
  info  : FaultInfo
  deriving DecidableEq, Repr

/-- The RegisterFile's stored fields (R20 to R28). Its two input lines stand in `InputLines`. -/
structure RegisterFile where
  /-- Bit 0 red, bit 1 green, bit 2 blue (R21). -/
  led            : BitVec 3
  clock          : Bit
  chipSelect     : Bit
  dataIn         : Bit
  /-- 0 to 15 under `LAZY`, never above 10 under `EAGER` (R25). -/
  bankControl    : BankCode
  /-- 1: recovery not engaged, 0: engaged (R26). -/
  recoveryActive : Bit
  deriving DecidableEq, Repr

/-- The hardware-visible fault record (R32). -/
structure FaultRecord where
  /-- Sticky (R182). -/
  faulted : Bit
  code    : BitVec 4
  info    : FaultInfo
  deriving DecidableEq, Repr

/-- The levels of the input signals (R42) while the current transaction runs: `data_out_1` and `data_out_4` of R20 and the
board's `RECOVERY_N`. They are driven from outside; the step presents new free levels before each transaction (log 3). -/
structure InputLines where
  dataOut1  : Bit
  dataOut4  : Bit
  /-- 1: recovery not engaged (R42). -/
  recoveryN : Bit
  deriving DecidableEq, Repr

/-- What an operation answers, where it answers anything (R73). -/
inductive Response where
  /-- A port read's byte. -/
  | byte (b : Byte)
  /-- A translation's `{valid, paddr}`. -/
  | translation (valid : Bit) (paddr : FlashAddr)
  /-- The masked address, APPLY_MASK's result (R100). -/
  | address (a : FlashAddr)
  /-- The pattern, MASK_FOR_BANK's result (R104). -/
  | pattern (p : Pattern)
  deriving DecidableEq, Repr

/-- The machine's state. -/
structure State where
  /-- The parameters, fixed for the device's lifetime (R7, R44; log 1). -/
  params   : Config.Params
  regs     : RegisterFile
  lines    : InputLines
  fault    : FaultRecord
  /-- Every fault so far, oldest first (R182: model bookkeeping). -/
  faultLog : List FaultEntry
  /-- The response of the last transaction, none where it has none (R73; log 7). -/
  response : Option Response
  /-- The host's transactions still to come, the next one first (R8, R36; log 2). -/
  stream   : List Input
  /-- How many transactions have been taken: it indexes the free values (log 4). The model's own. -/
  draws    : Nat
  deriving DecidableEq, Repr

/-- Why a step stops. -/
inductive Fault where
  /-- Raised by the step (`fetch`), under `ON_FAULT = HALT`, once `faulted = 1`: the device is stuck and takes no further
  transaction (R187). Safe: the model stops where the spec says the device has no enabled step. -/
  | halted
  deriving DecidableEq, Repr

/-- What the model gives no meaning to. -/
inductive Refusal where
  /-- Raised by an arm of `exec` whose operation has no meaning yet. Safe. No arm raises it now. -/
  | notModelled (mnemonic : String)
  /-- Raised by RESERVED_KIND3: a word of kind 0b11 spells no transaction of the block (R72, R80). Safe. -/
  | reservedKind
  /-- Raised by `issue`, never by a step: a port access that is not of exactly one byte (R53, R56). Safe. -/
  | portWidth
  /-- Raised by `issue`, never by a step: a port address to which no 16-bit register index belongs (R52, R71; log 14).
  Safe. -/
  | portOutOfReach
  deriving DecidableEq, Repr

/-- The state right after attach (R210), for given parameters, with no transaction yet in the host's stream. The three
line levels are never read: each step presents its own (DESIGN CHOICE 0, log 3; unsafe for claims about this field). -/
def State.attach (params : Config.Params) : State where
  params := params
  regs :=
    { led := 0b001#3, clock := 0, chipSelect := 0, dataIn := 0, bankControl := 0b0001#4, recoveryActive := 1 }
  lines := { dataOut1 := 0, dataOut4 := 0, recoveryN := 0 }
  fault := { faulted := 0, code := 0, info := 0 }
  faultLog := []
  response := none
  stream := []
  draws := 0

/-- Reset is attach, the block's only reset (R210, R211), with the parameters' defaults (R7). -/
def State.reset : State := State.attach Config.Params.default

end Sys2Proof.Machine
end

