-- ==== Sys2Proof/Machine/Literals.lean ====
section
/-!
DEFINITION. The source's numeric literals, which are unaudited (I1; log 13): the identification constant, the BankTable,
the first address bit a pattern governs, the codes of the faults. An audit that finds one wrong changes this file alone.
-/

namespace Sys2Proof.Machine

/-- The identification constant (R34). -/
def idByte : Byte := 0x55#8

/-- The largest defined bank code (R76). -/
def lastBank : BankCode := 10#4

/-- The BankTable (R105), patterns written as the source writes them, none for the undefined codes 11 to 15. -/
def bankTable (code : BankCode) : Option Pattern :=
  match code.toNat with
  | 0 => some (patternOf .pass .pass .pass)          -- direct/unmodified flash (TSOP)
  | 1 => some (patternOf .force1 .force1 .force0)    -- bootloader bank
  | 2 => some (patternOf .force1 .force0 .pass)      -- primary OS bank
  | 3 => some (patternOf .force0 .force0 .force0)    -- user bank 1 (small)
  | 4 => some (patternOf .force0 .force0 .force1)    -- user bank 2 (small)
  | 5 => some (patternOf .force0 .force1 .force0)    -- user bank 3 (small)
  | 6 => some (patternOf .force0 .force1 .force1)    -- user bank 4 (small)
  | 7 => some (patternOf .force0 .force0 .pass)      -- user bank 1 (medium)
  | 8 => some (patternOf .force0 .force1 .pass)      -- user bank 2 (medium)
  | 9 => some (patternOf .force0 .pass .pass)        -- user bank 1 (large)
  | 10 => some (patternOf .force1 .force1 .force1)   -- recovery bank
  | _ => none

/-- Symbol i governs address bit 20 - i (R12, R74). -/
def governedBit (i : Nat) : Nat := 20 - i

/-- The code of a fault (R180). -/
def faultCode : FaultCause → BitVec 4
  | .reg0ReservedBits => 1
  | .reg1ReservedBit => 2
  | .unknownRegisterWrite => 3
  | .unknownRegisterRead => 4
  | .undefinedBank => 5
  | .writeUndefinedBank => 6
  | .invalidPatternSymbol => 7

end Sys2Proof.Machine
end

