-- ==== Sys2Proof/Machine/Flags.lean ====
section
/-!
DEFINITION. The block has no condition codes and no operation sets a flag (R37). Its status bits are the recovery flag and
the two data-out lines, which the register-1 read combines into the status byte (R40, R141), and the fault record (R32).
-/

namespace Sys2Proof.Machine

/-- The byte of a register-1 read (R40, R141). -/
def statusByte (recovery dataOut1 dataOut4 : Bit) (bank : BankCode) : Byte :=
  (recovery.setWidth 8 <<< 7) ||| (0#8 <<< 6) ||| (dataOut1.setWidth 8 <<< 5) ||| (dataOut4.setWidth 8 <<< 4)
    ||| bank.setWidth 8

/-- The recovery flag a register-1 read returns (R28, R29). -/
def recoveryFlag (s : State) : Bit :=
  match s.params.recoverySource with
  | .held => s.regs.recoveryActive
  | .line => s.lines.recoveryN

/-- `data_out_1` as a register-1 read returns it (R30). -/
def dataOut1 (s : State) : Bit :=
  match s.params.doutSource with
  | .zero => 0
  | .line => s.lines.dataOut1

/-- `data_out_4` as a register-1 read returns it (R31). -/
def dataOut4 (s : State) : Bit :=
  match s.params.doutSource with
  | .zero => 0
  | .line => s.lines.dataOut4

/-- The record after one more fault: the first fault stays in it, and `faulted` is sticky (R182). -/
def FaultRecord.record (r : FaultRecord) (f : FaultCause) (info : FaultInfo) : FaultRecord :=
  if r.faulted = 0 then { faulted := 1, code := faultCode f, info := info } else { r with faulted := 1 }

end Sys2Proof.Machine
end

