-- ==== Sys2Proof/Machine/Operands.lean ====
section
/-!
DEFINITION. The operand forms that are read in the machine: the symbols of a pattern (R74, R75) and what the AddressMasker
does to an address bit (R100). The register-write operands are fields, taken apart by the decoder (R77, R78).
-/

namespace Sys2Proof.Machine

/-- The two bits of symbol i of a pattern, `p[5-2i : 4-2i]` (R74). -/
def symbolField (p : Pattern) (i : Nat) : BitVec 2 := p.extractLsb' (4 - 2 * i) 2

/-- Symbol i of a pattern, none where its bits are 0b01 (R74). -/
def symbolAt (p : Pattern) (i : Nat) : Option Symbol := symbolOfBits (symbolField p i)

/-- Are all three symbols legal? (R75) -/
def legalPattern (p : Pattern) : Bool :=
  (symbolAt p 0).isSome && (symbolAt p 1).isSome && (symbolAt p 2).isSome

/-- The force mask `M = {p[5], p[3], p[1]}` (R75). -/
def forceMask (p : Pattern) : BitVec 3 := p.extractLsb' 5 1 ++ p.extractLsb' 3 1 ++ p.extractLsb' 1 1

/-- The force value `V = {p[4], p[2], p[0]}` (R75). -/
def forceValue (p : Pattern) : BitVec 3 := p.extractLsb' 4 1 ++ p.extractLsb' 2 1 ++ p.extractLsb' 0 1

/-- What symbol i does to its address bit: clear it, set it, or leave it (R74, R100). -/
def governBit (s : Option Symbol) (b : Nat) (a : FlashAddr) : FlashAddr :=
  match s with
  | some .force0 => a &&& ~~~(1#24 <<< b)
  | some .force1 => a ||| (1#24 <<< b)
  | some .pass => a
  | none => a

/-- `apply_mask(a, p)` (R100): none when a symbol is illegal, every symbol being checked before any result. -/
def applyMask (p : Pattern) (a : FlashAddr) : Option FlashAddr :=
  if legalPattern p then
    some (governBit (symbolAt p 2) (governedBit 2)
      (governBit (symbolAt p 1) (governedBit 1)
        (governBit (symbolAt p 0) (governedBit 0) a)))
  else none

/-- `mask_for_bank(code)` (R104): none for the undefined codes. -/
def maskForBank (code : BankCode) : Option Pattern :=
  if lastBank < code then none else bankTable code

end Sys2Proof.Machine
end

