-- ==== Sys2Proof/Machine/Ops.lean ====
section
/-!
DEFINITION. The operations every meaning is made of: the response (R73), the two register writes (R120, R122), taking a
fault (R182, the block's only exception entry, R190; there is no return from one, R191), and taking the next transaction
from the host's stream (R8, R187).
-/

namespace Sys2Proof.Machine

/-- Give the transaction's response (R73). -/
def State.respond (r : Option Response) (s : State) : State := { s with response := r }

/-- Store the LED bits (R120). -/
def State.writeLed (led : BitVec 3) (s : State) : State := { s with regs := { s.regs with led := led } }

/-- Store the SPI lines and the bank code, all four together (R57, R122). -/
def State.writeControl (clock chipSelect dataIn : Bit) (bank : BankCode) (s : State) : State :=
  { s with
    regs :=
      { s.regs with clock := clock, chipSelect := chipSelect, dataIn := dataIn, bankControl := bank } }

/-- `raise F(info)` (R182): the fault record and the log, and no field of the RegisterFile (R181). -/
def State.raise (f : FaultCause) (info : FaultInfo) (s : State) : State :=
  { s with fault := s.fault.record f info, faultLog := s.faultLog ++ [{ cause := f, info := info }] }

/-- A transaction word as `fault_info` holds it: zero-extended (R180). -/
def wordInfo (t : TransWord) : FaultInfo := t.setWidth 30

/-- Under `HALT`, a device with `faulted = 1` has no enabled step (R187). -/
def State.isHalted (s : State) : Bool :=
  s.fault.faulted == 1 && s.params.onFault == .halting

/-- Take the first transaction off the stream: `rest` remains, the input lines have the free levels of this transaction
(R29 to R31, R42; log 3), and the counter moves on (log 4). -/
def State.present (rest : List Input) (s : State) : State :=
  { s with
    stream := rest
    lines :=
      { dataOut1 := Config.dataOut1Level s.draws
        dataOut4 := Config.dataOut4Level s.draws
        recoveryN := Config.recoveryLevel s.draws }
    draws := s.draws + 1 }

/-- The next operation and the state it runs in; `none` where the host presents nothing (log 2). A halted device takes
nothing, whatever the host presents (R187; log 6). -/
def fetch (s : State) : Host.Outcome (Option (Instr × State)) Fault Refusal :=
  if s.isHalted then .fault .halted
  else
    match s.stream with
    | [] => .next none
    | x :: rest => .next (some (decode x, s.present rest))

/-- Put an input before all others of the stream. -/
def State.presentFirst (x : Input) (s : State) : State := { s with stream := x :: s.stream }

/-- Put an input after all others of the stream (R61: the host's order). -/
def State.enqueue (x : Input) (s : State) : State := { s with stream := s.stream ++ [x] }

end Sys2Proof.Machine
end

