-- ==== Sys2Proof/Machine/RegisterRead.lean ====
section
/-!
DEFINITION. The port reads (42_register_read.md, R140 to R144). A read changes nothing but the response (R45); the word's
data bits are ignored, but for the record of a fault, which holds the whole word (R180).
-/

namespace Sys2Proof.Machine

/-- RD0 (R140): the identification byte. -/
def execRd0 (_data : Byte) (s : State) : Host.Outcome State Fault Refusal :=
  .next (s.respond (some (.byte idByte)))

/-- RD1 (R141): the status byte. -/
def execRd1 (_data : Byte) (s : State) : Host.Outcome State Fault Refusal :=
  .next (s.respond (some (.byte (statusByte (recoveryFlag s) (dataOut1 s) (dataOut4 s) s.regs.bankControl))))

/-- What a faulting port read answers: nothing under `HALT`, any byte under `CONTINUE` (R184; a free value, log 4). -/
def faultingReadResponse (s : State) : Option Response :=
  match s.params.onFault with
  | .halting => none
  | .continuing => some (.byte (Config.freeByte s.draws))

/-- RD_UNKNOWN (R144): fault 4. -/
def execRdUnknown (idx : RegIndex) (data : Byte) (s : State) : Host.Outcome State Fault Refusal :=
  .next ((s.raise .unknownRegisterRead (wordInfo (portReadWord idx data))).respond (faultingReadResponse s))

end Sys2Proof.Machine
end

