-- ==== Sys2Proof/Machine/RegisterWrite.lean ====
section
/-!
DEFINITION. The port writes (41_register_write.md, R120 to R126). A port write has no response (R73, R186).
-/

namespace Sys2Proof.Machine

/-- WR0 (R120): store the LED bits. -/
def execWr0 (led : BitVec 3) (s : State) : Host.Outcome State Fault Refusal :=
  .next ((s.writeLed led).respond none)

/-- WR0_RSV (R121): fault 1, no field written. -/
def execWr0Rsv (data : Byte) (s : State) : Host.Outcome State Fault Refusal :=
  .next ((s.raise .reg0ReservedBits (wordInfo (portWriteWord 0 data))).respond none)

/-- WR1 (R122): store the SPI lines and the bank code together; under `EAGER` an undefined bank code is fault 6 and
nothing is stored (R123). -/
def execWr1 (clock chipSelect dataIn : Bit) (bank : BankCode) (s : State) : Host.Outcome State Fault Refusal :=
  if s.params.bankValidation = .eager ∧ lastBank < bank then
    .next ((s.raise .writeUndefinedBank
      (wordInfo (portWriteWord 1 (reg1Byte clock chipSelect dataIn bank)))).respond none)
  else .next ((s.writeControl clock chipSelect dataIn bank).respond none)

/-- WR1_RSV (R124): fault 2, no field written. -/
def execWr1Rsv (data : BitVec 7) (s : State) : Host.Outcome State Fault Refusal :=
  .next ((s.raise .reg1ReservedBit (wordInfo (portWriteWord 1 (reg1RsvByte data)))).respond none)

/-- WR_UNKNOWN (R125): fault 3, whatever the byte. -/
def execWrUnknown (idx : RegIndex) (data : Byte) (s : State) : Host.Outcome State Fault Refusal :=
  .next ((s.raise .unknownRegisterWrite (wordInfo (portWriteWord idx data))).respond none)

end Sys2Proof.Machine
end

