-- ==== Sys2Proof/Machine/Reserved.lean ====
section
/-!
DEFINITION. The reserved kind 0b11 (R72, R80, R81).
-/

namespace Sys2Proof.Machine

/-- RESERVED_KIND3: "A word of kind 0b11 spells no transaction of the block; the model refuses it" (R72). No device input
carries it, so it is no fault of the device (R183). -/
def execReservedKind3 (_payload : BitVec 24) (_s : State) : Host.Outcome State Fault Refusal :=
  .refused .reservedKind

end Sys2Proof.Machine
end

