-- ==== Sys2Proof/Machine/SubBlocks.lean ====
section
/-!
DEFINITION. The two sub-blocks as operations of their own (40_masker_banktable.md, R100, R104), reachable for tests (R8,
D22). They read no state and write none but the fault record on a fault; a faulting one produces no result (R186).
-/

namespace Sys2Proof.Machine

/-- APPLY_MASK (R100): the masked address, or fault 7 with info `{p, a}`. -/
def execApplyMask (p : Pattern) (addr : FlashAddr) (s : State) : Host.Outcome State Fault Refusal :=
  match applyMask p addr with
  | none => .next ((s.raise .invalidPatternSymbol (maskInputWord p addr)).respond none)
  | some a => .next (s.respond (some (.address a)))

/-- MASK_FOR_BANK (R104): the bank's pattern, or fault 5 with info `zext_30(code)`. -/
def execMaskForBank (code : BankCode) (s : State) : Host.Outcome State Fault Refusal :=
  match maskForBank code with
  | none => .next ((s.raise .undefinedBank (code.setWidth 30)).respond none)
  | some p => .next (s.respond (some (.pattern p)))

end Sys2Proof.Machine
end

