-- ==== Sys2Proof/Machine/Translate.lean ====
section
/-!
DEFINITION. Flash address translation (43_translate.md, R160 to R163). A translation writes no RegisterFile field (R45).
-/

namespace Sys2Proof.Machine

/-- The response of a faulting translation: `valid = 0` and any address (R185; a free value, log 4). -/
def faultingTranslation (s : State) : Option Response :=
  some (.translation 0 (Config.freeAddress s.draws))

/-- XLAT (R160): the address through the current bank's pattern. An undefined bank code is fault 5, its info the translate
word. The AddressMasker's own fault cannot occur here, since every BankTable entry is legal (R109; log 20). -/
def execXlat (addr : FlashAddr) (s : State) : Host.Outcome State Fault Refusal :=
  match maskForBank s.regs.bankControl with
  | none => .next ((s.raise .undefinedBank (wordInfo (translateWord addr))).respond (faultingTranslation s))
  | some p =>
    match applyMask p addr with
    | none => .next ((s.raise .invalidPatternSymbol (maskInputWord p addr)).respond (faultingTranslation s))
    | some a => .next (s.respond (some (.translation 1 a)))

end Sys2Proof.Machine
end

