-- ==== Sys2Proof/Machine/Dispatch.lean ====
section
/-!
DEFINITION. One arm per operation of the opcode table (R79), each a direct call of its meaning.
-/

namespace Sys2Proof.Machine

/-- The effect of one operation. -/
def exec (i : Instr) (s : State) : Host.Outcome State Fault Refusal :=
  match i with
  | .wr0 led => Sys2Proof.Machine.execWr0 led s
  | .wr0Rsv data => Sys2Proof.Machine.execWr0Rsv data s
  | .wr1 clock chipSelect dataIn bank => Sys2Proof.Machine.execWr1 clock chipSelect dataIn bank s
  | .wr1Rsv data => Sys2Proof.Machine.execWr1Rsv data s
  | .wrUnknown idx data => Sys2Proof.Machine.execWrUnknown idx data s
  | .rd0 data => Sys2Proof.Machine.execRd0 data s
  | .rd1 data => Sys2Proof.Machine.execRd1 data s
  | .rdUnknown idx data => Sys2Proof.Machine.execRdUnknown idx data s
  | .xlat addr => Sys2Proof.Machine.execXlat addr s
  | .reservedKind3 payload => Sys2Proof.Machine.execReservedKind3 payload s
  | .applyMask p addr => Sys2Proof.Machine.execApplyMask p addr s
  | .maskForBank code => Sys2Proof.Machine.execMaskForBank code s

end Sys2Proof.Machine
end

