-- ==== Sys2Proof/Machine/Step.lean ====
section
/-!
DEFINITION. One step: one transaction of the host's stream, taken whole (R8, R57).
-/

namespace Sys2Proof.Machine

/-- Take the next transaction (`fetch`) and execute it. Where the host presents none, nothing happens (log 2). -/
def step (s : State) : Host.Outcome State Fault Refusal :=
  match fetch s with
  | .next none => .next s
  | .next (some (i, s')) => exec i s'
  | .fault f => .fault f
  | .refused r => .refused r

/-- `s` with a row's bits as the host's next transaction (log 2, log 10). Bits that are no input of the block place
nothing. -/
def State.withFetchWord (s : State) (nbits w : Nat) : State :=
  match tableInput nbits w with
  | .ok x => s.presentFirst x
  | .error _ => s

end Sys2Proof.Machine
end

