-- ==== Sys2Proof/Machine/Ports.lean ====
section
/-!
DEFINITION. The block's interfaces to the outside (R41, R42): its output signals, the host's bus accesses and how one
becomes a transaction (R52, R53, R56), and re-attachment (R211).
-/

namespace Sys2Proof.Machine

/-- The output signals (R41). -/
structure OutputPorts where
  led       : BitVec 3
  spiClk    : Bit
  spiCs     : Bit
  spiDin    : Bit
  fault     : Bit
  faultCode : BitVec 4
  faultInfo : FaultInfo
  deriving DecidableEq, Repr

/-- Each output is the current value of its field (R41); no polarity is assumed (D24). -/
def outputPorts (s : State) : OutputPorts where
  led := s.regs.led
  spiClk := s.regs.clock
  spiCs := s.regs.chipSelect
  spiDin := s.regs.dataIn
  fault := s.fault.faulted
  faultCode := s.fault.code
  faultInfo := s.fault.info

/-- What the host can ask of the block (R42). Bytes are listed lowest port first. -/
inductive HostAccess where
  | read (port nbytes : Nat)
  | write (port : Nat) (bytes : List Byte)
  | translate (addr : FlashAddr)
  deriving DecidableEq, Repr

/-- `idx = port − BASE_PORT` (R52), where the index fits its 16 bits (R71). -/
def portIndex (base port : Nat) : Option RegIndex :=
  if base ≤ port ∧ port - base < 2 ^ 16 then some (BitVec.ofNat 16 (port - base)) else none

/-- The transaction of a bus access at a base port: an access of any width but one byte is refused (R53, R56). -/
def accessInput (base : Nat) : HostAccess → Host.Outcome Input Fault Refusal
  | .read port nbytes =>
    if nbytes = 1 then
      match portIndex base port with
      | some idx => .next (.transaction (portReadWord idx 0))
      | none => .refused .portOutOfReach
    else .refused .portWidth
  | .write port bytes =>
    match bytes with
    | [v] =>
      match portIndex base port with
      | some idx => .next (.transaction (portWriteWord idx v))
      | none => .refused .portOutOfReach
    | _ => .refused .portWidth
  | .translate addr => .next (.transaction (translateWord addr))

/-- The host issues a bus access to the machine: its transaction joins the stream, behind all earlier ones (R61). -/
def issue (acc : HostAccess) (s : State) : Host.Outcome State Fault Refusal :=
  match accessInput Config.basePort acc with
  | .next x => .next (s.enqueue x)
  | .fault f => .fault f
  | .refused r => .refused r

/-- Detach and attach again: a new device with the reset state (R191, R211), at the same host, so the parameters, the
host's stream and the count of free values go on (log 17). -/
def reattach (s : State) : State :=
  { State.attach s.params with stream := s.stream, draws := s.draws }

end Sys2Proof.Machine
end

