-- ==== Sys2Proof/Safety.lean ====
section
/-!
DEFINITION. The terms claims use: what a safe run is, the invariant of the machine, the tables of R105 and R107 as the spec
prints them, and the three host transactions written over the raw fields of a word (R11), independently of the decoder,
the opcode map and the symbol-by-symbol AddressMasker.
-/

namespace Sys2Proof.Machine

/-! ### Safe states and the invariant -/

/-- No fault has been recorded: what a run that violates none of the block's contracts keeps (R180). -/
def State.unfaulted (s : State) : Bool := s.fault.faulted == 0

/-- The record that a log of faults leaves: that of the first one (R182), all zero where there is none (R210). -/
def recordOf : List FaultEntry → FaultRecord
  | [] => { faulted := 0, code := 0, info := 0 }
  | e :: _ => { faulted := 1, code := faultCode e.cause, info := e.info }

/-- The invariant: the record is that of the first fault of the log (R182), under `EAGER` the bank code is defined (R25),
the recovery flag has its reset value (R28), and under `HALT` there is at most one fault (R187, R192). -/
structure State.Inv (s : State) : Prop where
  record : s.fault = recordOf s.faultLog
  bank : s.params.bankValidation = .eager → s.regs.bankControl ≤ 10
  recovery : s.regs.recoveryActive = 1
  oneFault : s.params.onFault = .halting → s.faultLog.length ≤ 1

/-! ### Tables of the spec -/

/-- The `M` and `V` columns of R105. -/
def bankForce (code : BankCode) : Option (BitVec 3 × BitVec 3) :=
  match code.toNat with
  | 0 => some (0b000, 0b000)
  | 1 => some (0b111, 0b110)
  | 2 => some (0b110, 0b100)
  | 3 => some (0b111, 0b000)
  | 4 => some (0b111, 0b001)
  | 5 => some (0b111, 0b010)
  | 6 => some (0b111, 0b011)
  | 7 => some (0b110, 0b000)
  | 8 => some (0b110, 0b010)
  | 9 => some (0b100, 0b000)
  | 10 => some (0b111, 0b111)
  | _ => none

/-- The encodings `p` of R105 (and of the vectors V2). -/
def bankEncoding (code : BankCode) : Option Pattern :=
  match code.toNat with
  | 0 => some 0x00
  | 1 => some 0x3E
  | 2 => some 0x38
  | 3 => some 0x2A
  | 4 => some 0x2B
  | 5 => some 0x2E
  | 6 => some 0x2F
  | 7 => some 0x28
  | 8 => some 0x2C
  | 9 => some 0x20
  | 10 => some 0x3F
  | _ => none

/-- The physical window of the first 2 MiB of logical addresses under each bank, first and last address (R107). -/
def bankWindow (code : BankCode) : Option (Nat × Nat) :=
  match code.toNat with
  | 0 => some (0x000000, 0x1FFFFF)
  | 1 => some (0x180000, 0x1BFFFF)
  | 2 => some (0x100000, 0x17FFFF)
  | 3 => some (0x000000, 0x03FFFF)
  | 4 => some (0x040000, 0x07FFFF)
  | 5 => some (0x080000, 0x0BFFFF)
  | 6 => some (0x0C0000, 0x0FFFFF)
  | 7 => some (0x000000, 0x07FFFF)
  | 8 => some (0x080000, 0x0FFFFF)
  | 9 => some (0x000000, 0x0FFFFF)
  | 10 => some (0x1C0000, 0x1FFFFF)
  | _ => none

/-! ### The host transactions over raw fields (R11) -/

/-- The state after a fault with this code, cause and recorded info (R181, R182). -/
def faultedState (code : BitVec 4) (cause : FaultCause) (info : FaultInfo) (r : Option Response) (s : State) : State :=
  { s with
    fault :=
      if s.fault.faulted = 1 then s.fault else { faulted := 1, code := code, info := info }
    faultLog := s.faultLog ++ [{ cause := cause, info := info }]
    response := r }

/-- `PortWrite(idx, v)` (R120 to R125): the checks in the order of R183. -/
def referenceWrite (idx : RegIndex) (v : Byte) (s : State) : State :=
  let info : FaultInfo := 0x1000000#30 ||| (idx.setWidth 30 <<< 8) ||| v.setWidth 30
  if idx = 0 then
    if v &&& 0xF8#8 = 0 then { s with regs := { s.regs with led := v.setWidth 3 }, response := none }
    else faultedState 1 .reg0ReservedBits info none s
  else if idx = 1 then
    if v &&& 0x80#8 ≠ 0 then faultedState 2 .reg1ReservedBit info none s
    else if s.params.bankValidation = .eager ∧ 10 < (v &&& 0x0F#8) then
      faultedState 6 .writeUndefinedBank info none s
    else
      { s with
        regs :=
          { s.regs with
            clock := (v >>> 6).setWidth 1
            chipSelect := (v >>> 5).setWidth 1
            dataIn := (v >>> 4).setWidth 1
            bankControl := (v &&& 0x0F#8).setWidth 4 }
        response := none }
  else faultedState 3 .unknownRegisterWrite info none s

/-- `PortRead(idx)` (R140, R141, R144, R184); `v` is the word's ignored data field. -/
def referenceRead (idx : RegIndex) (v : Byte) (s : State) : State :=
  if idx = 0 then { s with response := some (.byte 0x55) }
  else if idx = 1 then
    let rec1 : Bit := if s.params.recoverySource = .held then s.regs.recoveryActive else s.lines.recoveryN
    let d1 : Bit := if s.params.doutSource = .zero then 0 else s.lines.dataOut1
    let d4 : Bit := if s.params.doutSource = .zero then 0 else s.lines.dataOut4
    { s with response := some (.byte (rec1 ++ 0#1 ++ d1 ++ d4 ++ s.regs.bankControl)) }
  else
    faultedState 4 .unknownRegisterRead ((idx.setWidth 30 <<< 8) ||| v.setWidth 30)
      (if s.params.onFault = .continuing then some (.byte (Config.freeByte s.draws)) else none) s

/-- `Translate(a)` (R160, R185), by the closed form of R102 over the columns `M` and `V` of R105. -/
def referenceTranslate (a : FlashAddr) (s : State) : State :=
  match bankForce s.regs.bankControl with
  | none =>
    faultedState 5 .undefinedBank (0x2000000#30 ||| a.setWidth 30)
      (some (.translation 0 (Config.freeAddress s.draws))) s
  | some (m, v) =>
    { s with
      response :=
        some (.translation 1
          (a.extractLsb' 21 3 ++ ((a.extractLsb' 18 3 &&& ~~~m) ||| (v &&& m)) ++ a.extractLsb' 0 18)) }

/-- One transaction word, by its kind (R70, R72); none for the reserved kind. -/
def referenceTransaction (t : TransWord) (s : State) : Option State :=
  if t.extractLsb' 24 2 = 0 then some (referenceRead (wordIndex t) (wordData t) s)
  else if t.extractLsb' 24 2 = 1 then some (referenceWrite (wordIndex t) (wordData t) s)
  else if t.extractLsb' 24 2 = 2 then some (referenceTranslate (t.setWidth 24) s)
  else none

end Sys2Proof.Machine
end

