-- ==== Sys2Proof/Certificates/Slice0/Obligations.lean ====
section
/-!
DEFINITION. The statements for the provers. Each docstring names the rule of spec/ it comes from; where a clause rests on a
decision or a derivation that the spec marks as its own, or on a choice of the model's, it says so.
A transaction word is written as 95_test_vectors.md writes it: `IN r` = r << 8 | data, `OUT r, v` = 0x1000000 | r << 8 | v,
`XLAT a` = 0x2000000 | a. A fault's effect is `faultedState` (Safety.lean): the record, the log and the response change.
-/

open Sys2Proof Sys2Proof.Machine

/-! ### Encoding -/

/-- R70, R79: decoding the encoding of a well-formed operation gives it back, at every value of every operand. -/
def Obligations.DecodeEncodeRoundTrip : Prop :=
  ∀ i : Instr, wellFormed i = true → decode (encode i) = i

/-- R70, R79: every input is the encoding of what it decodes to, so no bit of any word is dropped. -/
def Obligations.EncodeDecodeRoundTrip : Prop :=
  ∀ x : Input, encode (decode x) = x

/-- R79: the decoder selects a row of lower priority only where it applies. -/
def Obligations.DecodedIsWellFormed : Prop :=
  ∀ x : Input, wellFormed (decode x) = true

/-- R79: the decoded operation's row fits the word, and no row of the table that fits the word comes before it in
priority order. -/
def Obligations.DecoderTakesFirstRowInPriorityOrder : Prop :=
  ∀ t : TransWord, ∃ row ∈ opcodeRows,
    row.mnemonic = (decodeTransaction t).mnemonic ∧ hitsRow t row.fixed row.mask = true ∧
      ∀ r ∈ opcodeRows, hitsRow t r.fixed r.mask = true → r = row ∨ row.priority < r.priority

/-- R79, "Rows of equal priority never overlap". -/
def Obligations.EqualPriorityRowsNeverOverlap : Prop :=
  ∀ r₁ ∈ opcodeRows, ∀ r₂ ∈ opcodeRows, r₁.priority = r₂.priority →
    ∀ t : TransWord, hitsRow t r₁.fixed r₁.mask = true → hitsRow t r₂.fixed r₂.mask = true → r₁ = r₂

/-- Words that the rules and the vectors V1 to V5 write out, and what they stand for. -/
def Obligations.SpecWordsDecode : Prop :=
  decode (.transaction 0x1000002) = .wr0 0b010 ∧
  decode (.transaction 0x1000009) = .wr0Rsv 0x09 ∧
  decode (.transaction 0x1000165) = .wr1 1 1 0 5 ∧
  decode (.transaction 0x1000183) = .wr1Rsv 0b0000011 ∧
  decode (.transaction 0x1FFFF01) = .wrUnknown 0xFFFF 0x01 ∧
  decode (.transaction 0x00000FF) = .rd0 0xFF ∧
  decode (.transaction 0x0000100) = .rd1 0x00 ∧
  decode (.transaction 0x0000700) = .rdUnknown 7 0x00 ∧
  decode (.transaction 0x2E5A5A5) = .xlat 0xE5A5A5 ∧
  decode (.transaction 0x3000000) = .reservedKind3 0 ∧
  decode (.maskInput 0x3E123456) = .applyMask 0x3E 0x123456 ∧
  decode (.bankInput 2) = .maskForBank 2

/-- R84 (the spec's decision D17): what the pseudo-operations expand to. SELBANK writes 0 to the SPI lines. -/
def Obligations.PseudoOperationsDecode : Prop :=
  (∀ r g b : Bit, decode (asmLed r g b) = .wr0 (b ++ g ++ r)) ∧
  (∀ c : BankCode, decode (asmSelBank c) = .wr1 0 0 0 c) ∧
  (∀ (k s d : Bit) (c : BankCode), decode (asmSpi k s d c) = .wr1 k s d c) ∧
  decode asmDetect = .rd0 0

/-! ### Attach and the step -/

/-- R210: the state right after attach, under any parameters. `clock`, `chip_select` and `data_in` are the spec's decision
D12 (log 11), the fault record its decision D6; `response`, `stream` and the parameters' defaults are the model's (log 1,
log 2, log 7). -/
def Obligations.AttachState : Prop :=
  (∀ p : Config.Params,
    (State.attach p).regs =
      { led := 0b001, clock := 0, chipSelect := 0, dataIn := 0, bankControl := 0b0001, recoveryActive := 1 } ∧
    (State.attach p).fault = { faulted := 0, code := 0, info := 0 } ∧
    (State.attach p).faultLog = [] ∧ (State.attach p).response = none ∧ (State.attach p).stream = [] ∧
    (State.attach p).params = p) ∧
  State.reset =
    State.attach
      { bankValidation := .lazy, onFault := .halting, doutSource := .line, recoverySource := .held }

/-- R8: a step takes the first input of the host's stream and executes what it decodes to, in the state that differs from
the old one only in the stream, the free levels of the input lines and the count of transactions (log 2, log 3, log 4). -/
def Obligations.StepRunsDecodedInput : Prop :=
  ∀ (s : State) (x : Input) (rest : List Input), s.isHalted = false → s.stream = x :: rest →
    step s =
      exec (decode x)
        { s with
          stream := rest
          lines :=
            { dataOut1 := Config.dataOut1Level s.draws
              dataOut4 := Config.dataOut4Level s.draws
              recoveryN := Config.recoveryLevel s.draws }
          draws := s.draws + 1 }

/-- R187 (the spec's decision D8): under HALT, once `faulted = 1` no port read, port write or translation is taken. That the
halted device comes before an idle host, a word of kind 0b11 and a sub-block input too is the model's reading (DEDUCED,
log 6). -/
def Obligations.HaltedDeviceTakesNoStep : Prop :=
  ∀ s : State, s.fault.faulted = 1 → s.params.onFault = .halting → step s = .fault .halted

/-- Where the host presents nothing, nothing happens (the model's choice, log 2). -/
def Obligations.IdleHostChangesNothing : Prop :=
  ∀ s : State, s.isHalted = false → s.stream = [] → step s = .next s

/-- The one fault outcome of a step is that of the halted device (R187, the spec's decision D8). That a faulting operation
answers a next state and not a fault outcome is the model's reading of R181 (DEDUCED, log 5); that a halted device answers
the fault outcome also before an idle host, a word of kind 0b11 and a sub-block input is DEDUCED in log 6. -/
def Obligations.FaultOutcomeOnlyOfHaltedDevice : Prop :=
  ∀ (s : State) (f : Fault),
    step s = .fault f ↔ f = .halted ∧ s.fault.faulted = 1 ∧ s.params.onFault = .halting

/-- R72, R80, R183 (the spec's decision D2): a step is refused exactly where a device that may step is presented a word of
kind 0b11. That a halted device does not come to refuse it is DEDUCED in log 6. -/
def Obligations.RefusalOnlyOfReservedKind : Prop :=
  ∀ (s : State) (r : Refusal),
    step s = .refused r ↔
      r = .reservedKind ∧ s.isHalted = false ∧
        ∃ (t : TransWord) (rest : List Input), s.stream = .transaction t :: rest ∧ t.extractLsb' 24 2 = 3

/-- The three host transactions, as the spec's pseudocode over the raw fields of a word gives them (R11; R120 to R125,
R140 to R144, R160, R182 to R185; Safety.lean), are what the opcode map, the meanings and the symbol-by-symbol AddressMasker
do; and the reserved kind has no effect. -/
def Obligations.TransactionsFollowThePseudocode : Prop :=
  ∀ (t : TransWord) (s : State),
    exec (decode (.transaction t)) s =
      match referenceTransaction t s with
      | some s' => .next s'
      | none => .refused .reservedKind

/-! ### Port writes -/

/-- R120, R121: `OUT 0, v` stores bits 2 to 0 in `led` and nothing else if bits 7 to 3 are clear, and otherwise is fault 1
and stores nothing. -/
def Obligations.Register0WriteRule : Prop :=
  ∀ (s : State) (v : Byte) (rest : List Input), s.isHalted = false →
    s.stream = .transaction (0x1000000#26 ||| v.setWidth 26) :: rest →
      step s =
        .next
          (if v.toNat < 8 then
            { s.present rest with regs := { s.regs with led := v.setWidth 3 }, response := none }
          else
            faultedState 1 .reg0ReservedBits (0x1000000#30 ||| v.setWidth 30) none (s.present rest))

/-- R122, R123 (LAZY and EAGER are the spec's decision D5): `OUT 1, v` with bit 7 clear stores the three lines and the bank
code together, except that under EAGER a bank code above 10 is fault 6 and stores nothing. -/
def Obligations.Register1WriteRule : Prop :=
  ∀ (s : State) (v : Byte) (rest : List Input), s.isHalted = false → v.toNat < 128 →
    s.stream = .transaction (0x1000100#26 ||| v.setWidth 26) :: rest →
      step s =
        .next
          (if s.params.bankValidation = .eager ∧ 10 < v.toNat % 16 then
            faultedState 6 .writeUndefinedBank (0x1000100#30 ||| v.setWidth 30) none (s.present rest)
          else
            { s.present rest with
              regs :=
                { s.regs with
                  clock := BitVec.ofBool (v.getLsbD 6)
                  chipSelect := BitVec.ofBool (v.getLsbD 5)
                  dataIn := BitVec.ofBool (v.getLsbD 4)
                  bankControl := BitVec.ofNat 4 v.toNat }
              response := none })

/-- R124: `OUT 1, v` with bit 7 set is fault 2 and writes no field, `recovery_active` in particular, whatever the bank
code and under both settings of BANK_VALIDATION. -/
def Obligations.Register1ReservedBitRule : Prop :=
  ∀ (s : State) (v : Byte) (rest : List Input), s.isHalted = false → 128 ≤ v.toNat →
    s.stream = .transaction (0x1000100#26 ||| v.setWidth 26) :: rest →
      step s =
        .next (faultedState 2 .reg1ReservedBit (0x1000100#30 ||| v.setWidth 30) none (s.present rest))

/-- R183 (the spec's decision D9): the one fault a port write reports, by the order of the checks. -/
def Obligations.PortWriteFaultPriority : Prop :=
  ∀ (s : State) (idx : RegIndex) (v : Byte) (rest : List Input), s.isHalted = false →
    s.stream = .transaction (0x1000000#26 ||| (idx.setWidth 26 <<< 8) ||| v.setWidth 26) :: rest →
      ∃ t, step s = .next t ∧
        (t.faultLog.map FaultEntry.cause) = (s.faultLog.map FaultEntry.cause) ++
          (if 2 ≤ idx.toNat then [.unknownRegisterWrite]
          else if idx = 0 then (if v.toNat < 8 then [] else [.reg0ReservedBits])
          else if 128 ≤ v.toNat then [.reg1ReservedBit]
          else if s.params.bankValidation = .eager ∧ 10 < v.toNat % 16 then [.writeUndefinedBank]
          else [])

/-! ### Port reads and unknown registers -/

/-- R140: `IN 0` answers 0x55 whatever was written before and whatever the word's data bits, and changes nothing. -/
def Obligations.Register0ReadRule : Prop :=
  ∀ (s : State) (d : Byte) (rest : List Input), s.isHalted = false →
    s.stream = .transaction (d.setWidth 26) :: rest →
      step s = .next { s.present rest with response := some (.byte 0x55) }

/-- R141 (the sources of its bits are the spec's decisions D10, D11): `IN 1` answers the status byte, its bit 6 being 0,
bits 3 to 0 the bank code, and bits 7, 5 and 4 the recovery flag and the data-out lines, each as its parameter says;
the line levels are free values. -/
def Obligations.Register1ReadRule : Prop :=
  ∀ (s : State) (d : Byte) (rest : List Input), s.isHalted = false →
    s.stream = .transaction (0x0000100#26 ||| d.setWidth 26) :: rest →
      ∃ b : Byte, step s = .next { s.present rest with response := some (.byte b) } ∧
        b.extractLsb' 0 4 = s.regs.bankControl ∧ b.getLsbD 6 = false ∧
        (s.params.recoverySource = .held → b.extractLsb' 7 1 = s.regs.recoveryActive) ∧
        (s.params.recoverySource = .line → b.extractLsb' 7 1 = Config.recoveryLevel s.draws) ∧
        (s.params.doutSource = .zero → b.extractLsb' 5 1 = 0 ∧ b.extractLsb' 4 1 = 0) ∧
        (s.params.doutSource = .line →
          b.extractLsb' 5 1 = Config.dataOut1Level s.draws ∧ b.extractLsb' 4 1 = Config.dataOut4Level s.draws)

/-- R125, R144, R184 (indices above 1 are the spec's decision D3, the response its decision D8): a port access to any other
index is fault 3 or 4 and writes no field; the read answers nothing under HALT and some byte under CONTINUE. -/
def Obligations.UnknownRegisterRule : Prop :=
  ∀ (s : State) (idx : RegIndex) (v : Byte) (rest : List Input), s.isHalted = false → 2 ≤ idx.toNat →
    (s.stream = .transaction (0x1000000#26 ||| (idx.setWidth 26 <<< 8) ||| v.setWidth 26) :: rest →
      step s =
        .next (faultedState 3 .unknownRegisterWrite
          (0x1000000#30 ||| (idx.setWidth 30 <<< 8) ||| v.setWidth 30) none (s.present rest))) ∧
    (s.stream = .transaction ((idx.setWidth 26 <<< 8) ||| v.setWidth 26) :: rest →
      ∃ r : Option Response,
        step s =
          .next (faultedState 4 .unknownRegisterRead
            ((idx.setWidth 30 <<< 8) ||| v.setWidth 30) r (s.present rest)) ∧
        (s.params.onFault = .halting → r = none) ∧
        (s.params.onFault = .continuing → ∃ b : Byte, r = some (.byte b)))

/-! ### Translation and the sub-blocks -/

/-- R160: `XLAT a` answers `{1, apply_mask(a, BANK_TABLE[bank_control])}` and writes nothing, for a bank code of 0 to 10.
For 11 to 15, which the invariant admits under LAZY only, it is fault 5 with the translate word as its info, and never an
address presented as valid (how the fault is answered is in TranslationOfUndefinedBankTraps). -/
def Obligations.TranslationRule : Prop :=
  ∀ (s : State) (a : FlashAddr) (rest : List Input), s.isHalted = false →
    s.stream = .transaction (0x2000000#26 ||| a.setWidth 26) :: rest →
      (s.regs.bankControl.toNat ≤ 10 →
        ∃ p r, bankEncoding s.regs.bankControl = some p ∧ applyMask p a = some r ∧
          step s = .next { s.present rest with response := some (.translation 1 r) }) ∧
      (10 < s.regs.bankControl.toNat →
        (s.Inv → s.params.bankValidation = .lazy) ∧
        ∃ answer, step s =
            .next (faultedState 5 .undefinedBank (0x2000000#30 ||| a.setWidth 30) answer (s.present rest)) ∧
          ∀ paddr, answer ≠ some (.translation 1 paddr))

/-- R161: for every valid bank code the address answered differs from the input only in bits 20 to 18, and only in the
positions the bank's pattern forces (the columns M and V of R105). -/
def Obligations.TranslationChangesOnlyForcedBits : Prop :=
  ∀ (s : State) (a : FlashAddr), s.regs.bankControl.toNat ≤ 10 →
    ∃ t r m v, exec (.xlat a) s = .next t ∧ t.response = some (.translation 1 r) ∧
      bankForce s.regs.bankControl = some (m, v) ∧
      (∀ b, ¬ (18 ≤ b ∧ b ≤ 20) → r.getLsbD b = a.getLsbD b) ∧
      ∀ j, j < 3 → r.getLsbD (18 + j) = if m.getLsbD j then v.getLsbD j else a.getLsbD (18 + j)

/-- R102 (derived there from R100): the closed form of `apply_mask`, and no result for an illegal pattern. -/
def Obligations.ApplyMaskClosedForm : Prop :=
  ∀ (p : Pattern) (a : FlashAddr),
    applyMask p a =
      if legalPattern p = true then
        some (a.extractLsb' 21 3 ++
          ((a.extractLsb' 18 3 &&& ~~~(forceMask p)) ||| (forceValue p &&& forceMask p)) ++ a.extractLsb' 0 18)
      else none

/-- R75 (derived there from R74): a pattern is legal exactly when `(~M & V) = 0`. -/
def Obligations.LegalPatternByForceBits : Prop :=
  ∀ p : Pattern, legalPattern p = true ↔ ~~~(forceMask p) &&& forceValue p = 0

/-- R109 (derived there from R105): every entry of the BankTable is legal, so a translation raises no fault but an
undefined bank. -/
def Obligations.TranslationNeverRaisesInvalidSymbol : Prop :=
  (∀ (code : BankCode) (p : Pattern), maskForBank code = some p → legalPattern p = true) ∧
  ∀ (a : FlashAddr) (s : State), ∃ t, exec (.xlat a) s = .next t ∧
    ∀ e ∈ t.faultLog, e ∈ s.faultLog ∨ e.cause = .undefinedBank

/-- R107 (derived there from R100, R105): under each bank, the logical addresses with given bits 23 to 21 map onto the
bank's window, moved up by those bits. -/
def Obligations.BankMapsOntoItsWindow : Prop :=
  ∀ (code : BankCode) (lo hi : Nat), bankWindow code = some (lo, hi) →
    ∃ p, maskForBank code = some p ∧
      (∀ a : FlashAddr, ∃ r, applyMask p a = some r ∧
        a.toNat / 2 ^ 21 * 2 ^ 21 + lo ≤ r.toNat ∧ r.toNat ≤ a.toNat / 2 ^ 21 * 2 ^ 21 + hi) ∧
      (∀ top n : Nat, top < 8 → lo ≤ n → n ≤ hi →
        ∃ a : FlashAddr, a.toNat / 2 ^ 21 = top ∧ applyMask p a = some (BitVec.ofNat 24 (top * 2 ^ 21 + n)))

/-- R108 (derived there from R107): which banks' windows cover or miss which, over the first 2 MiB. -/
def Obligations.BankWindowsOverlap : Prop :=
  let reaches : BankCode → FlashAddr → Prop := fun code r =>
    ∃ p a, maskForBank code = some p ∧ a.toNat < 2 ^ 21 ∧ applyMask p a = some r
  (∀ r, reaches 7 r ↔ reaches 3 r ∨ reaches 4 r) ∧
  (∀ r, reaches 8 r ↔ reaches 5 r ∨ reaches 6 r) ∧
  (∀ r, reaches 9 r ↔ reaches 7 r ∨ reaches 8 r) ∧
  (∀ r, ¬ (reaches 1 r ∧ reaches 2 r)) ∧ (∀ r, ¬ (reaches 1 r ∧ reaches 10 r)) ∧
  (∀ r, ¬ (reaches 2 r ∧ reaches 10 r)) ∧
  (∀ r, ¬ (reaches 9 r ∧ (reaches 1 r ∨ reaches 2 r ∨ reaches 10 r))) ∧
  (∀ r : FlashAddr, r.toNat < 2 ^ 21 → reaches 0 r)

/-! ### Where each operation completes, and where it traps -/

/-- R120, R122: WR0 in every state, and WR1 under LAZY or with a bank code of 0 to 10, store their operands and change
nothing else. -/
def Obligations.RegisterWritesComplete : Prop :=
  (∀ (led : BitVec 3) (s : State),
    exec (.wr0 led) s = .next { s with regs := { s.regs with led := led }, response := none }) ∧
  (∀ (c k d : Bit) (b : BankCode) (s : State), s.params.bankValidation = .lazy ∨ b.toNat ≤ 10 →
    exec (.wr1 c k d b) s =
      .next
        { s with
          regs := { s.regs with clock := c, chipSelect := k, dataIn := d, bankControl := b }
          response := none })

/-- R121, R124, R125, with the codes and infos of R180 (the spec's decision D7): the effect of WR0_RSV, WR1_RSV and
WR_UNKNOWN is their fault, and nothing else changes. At operands that no word decodes to (WR0_RSV with bits 7 to 3 clear,
WR_UNKNOWN with index 0 or 1) this is the model's choice (log 19), not R121 or R125. -/
def Obligations.RejectedWritesRecordTheirFault : Prop :=
  (∀ (v : Byte) (s : State),
    exec (.wr0Rsv v) s =
      .next (faultedState 1 .reg0ReservedBits (0x1000000#30 ||| v.setWidth 30) none s)) ∧
  (∀ (v : BitVec 7) (s : State),
    exec (.wr1Rsv v) s =
      .next (faultedState 2 .reg1ReservedBit (0x1000180#30 ||| v.setWidth 30) none s)) ∧
  (∀ (idx : RegIndex) (v : Byte) (s : State),
    exec (.wrUnknown idx v) s =
      .next (faultedState 3 .unknownRegisterWrite
        (0x1000000#30 ||| (idx.setWidth 30 <<< 8) ||| v.setWidth 30) none s))

/-- R123 (the spec's decision D5): under EAGER, WR1 with a bank code of 11 to 15 traps with fault 6. -/
def Obligations.EagerWriteOfUndefinedBankTraps : Prop :=
  ∀ (c k d : Bit) (b : BankCode) (s : State), s.params.bankValidation = .eager → 10 < b.toNat →
    exec (.wr1 c k d b) s =
      .next (faultedState 6 .writeUndefinedBank
        (0x1000100#30 ||| (c.setWidth 30 <<< 6) ||| (k.setWidth 30 <<< 5) ||| (d.setWidth 30 <<< 4) |||
          b.setWidth 30) none s)

/-- R140, R141: RD0 and RD1 complete in every state, an undefined bank code included, and change nothing but the
response. -/
def Obligations.RegisterReadsComplete : Prop :=
  (∀ (v : Byte) (s : State), exec (.rd0 v) s = .next { s with response := some (.byte 0x55) }) ∧
  (∀ (v : Byte) (s : State),
    exec (.rd1 v) s =
      .next
        { s with
          response :=
            some (.byte
              ((if s.params.recoverySource = .held then s.regs.recoveryActive else s.lines.recoveryN) ++ 0#1 ++
                (if s.params.doutSource = .zero then 0#1 else s.lines.dataOut1) ++
                (if s.params.doutSource = .zero then 0#1 else s.lines.dataOut4) ++ s.regs.bankControl)) })

/-- R144, R184 (the spec's decisions D3, D8): the effect of RD_UNKNOWN is fault 4; it answers nothing under HALT and some
byte under CONTINUE. At index 0 and 1, which no word decodes to, this is the model's choice (log 19), not R144. -/
def Obligations.UnknownReadRecordsItsFault : Prop :=
  ∀ (idx : RegIndex) (v : Byte) (s : State), ∃ r : Option Response,
    exec (.rdUnknown idx v) s =
      .next (faultedState 4 .unknownRegisterRead ((idx.setWidth 30 <<< 8) ||| v.setWidth 30) r s) ∧
    (s.params.onFault = .halting → r = none) ∧
    (s.params.onFault = .continuing → ∃ b : Byte, r = some (.byte b))

/-- R160: XLAT completes for a bank code of 0 to 10, through the table's pattern (the encodings of R105), and changes
nothing but the response. -/
def Obligations.TranslationCompletes : Prop :=
  ∀ (a : FlashAddr) (s : State), s.regs.bankControl.toNat ≤ 10 →
    ∃ p r, bankEncoding s.regs.bankControl = some p ∧ applyMask p a = some r ∧
      exec (.xlat a) s = .next { s with response := some (.translation 1 r) }

/-- R160, R185 (the shape of the response is the spec's decision D23): XLAT with a bank code of 11 to 15 traps with fault
5 and presents no valid address. -/
def Obligations.TranslationOfUndefinedBankTraps : Prop :=
  ∀ (a : FlashAddr) (s : State), 10 < s.regs.bankControl.toNat →
    ∃ free, exec (.xlat a) s =
      .next (faultedState 5 .undefinedBank (0x2000000#30 ||| a.setWidth 30) (some (.translation 0 free)) s)

/-- R72, R80 (the spec's decision D2): RESERVED_KIND3 is refused in every state. -/
def Obligations.ReservedKindIsRefused : Prop :=
  ∀ (w : BitVec 24) (s : State), exec (.reservedKind3 w) s = .refused .reservedKind

/-- R100, R101: APPLY_MASK completes for every legal pattern, in every state, and answers the masked address. -/
def Obligations.ApplyMaskCompletes : Prop :=
  ∀ (p : Pattern) (a : FlashAddr) (s : State), legalPattern p = true →
    ∃ r, exec (.applyMask p a) s = .next { s with response := some (.address r) } ∧
      (∀ b, ¬ (18 ≤ b ∧ b ≤ 20) → r.getLsbD b = a.getLsbD b) ∧
      ∀ i, i < 3 →
        r.getLsbD (20 - i) =
          if p.getLsbD (5 - 2 * i) then p.getLsbD (4 - 2 * i) else a.getLsbD (20 - i)

/-- R100 (the encoding of symbols is the spec's decision D4): APPLY_MASK with a symbol 0b01 anywhere traps with fault 7 and
produces no address. -/
def Obligations.ApplyMaskOfIllegalSymbolTraps : Prop :=
  ∀ (p : Pattern) (a : FlashAddr) (s : State) (i : Nat), i < 3 → p.extractLsb' (4 - 2 * i) 2 = 0b01 →
    exec (.applyMask p a) s =
      .next (faultedState 7 .invalidPatternSymbol ((p.setWidth 30 <<< 24) ||| a.setWidth 30) none s)

/-- R104: MASK_FOR_BANK answers the BankTable's pattern for the codes 0 to 10, and for 11 to 15 is fault 5 with the code as
its info. -/
def Obligations.MaskForBankRule : Prop :=
  (∀ (code : BankCode) (s : State), code.toNat ≤ 10 →
    ∃ p, bankEncoding code = some p ∧
      exec (.maskForBank code) s = .next { s with response := some (.pattern p) }) ∧
  (∀ (code : BankCode) (s : State), 10 < code.toNat →
    exec (.maskForBank code) s = .next (faultedState 5 .undefinedBank (code.setWidth 30) none s))

/-! ### Frames and independence, over all operations -/

/-- What every operation leaves alone: the parameters, the host's stream, the input lines, the count of free values and the
recovery flag always; `led` but for WR0; the lines and the bank code but for WR1; the fault record and the log but for a
fault. The block has no memory (R50) and no other state (R20, R35). -/
def Obligations.OperationFrame : Prop :=
  ∀ (i : Instr) (s t : State), exec i s = .next t →
    t.params = s.params ∧ t.stream = s.stream ∧ t.lines = s.lines ∧ t.draws = s.draws ∧
    t.regs.recoveryActive = s.regs.recoveryActive ∧
    ((∀ v, i ≠ .wr0 v) → t.regs.led = s.regs.led) ∧
    ((∀ c k d b, i ≠ .wr1 c k d b) →
      t.regs.clock = s.regs.clock ∧ t.regs.chipSelect = s.regs.chipSelect ∧ t.regs.dataIn = s.regs.dataIn ∧
        t.regs.bankControl = s.regs.bankControl) ∧
    ((t.fault = s.fault ∧ t.faultLog = s.faultLog) ∨
      (t.regs = s.regs ∧ t.fault.faulted = 1 ∧ ∃ e, t.faultLog = s.faultLog ++ [e]))

/-- R45: a read or a translation changes no field of the RegisterFile; a translation writes nothing but, on a fault, the
fault record (the response is its answer, R73), and is computed from `bank_control` and the address: two states with the
same bank code, whatever else they hold, answer the same valid address, or both present none as valid. -/
def Obligations.ReadsAndTranslationsLeaveRegisters : Prop :=
  (∀ (i : Instr) (s t : State),
    ((∃ v, i = .rd0 v) ∨ (∃ v, i = .rd1 v) ∨ (∃ x v, i = .rdUnknown x v) ∨ ∃ a, i = .xlat a) →
      exec i s = .next t → t.regs = s.regs) ∧
  (∀ (a : FlashAddr) (s : State), ∃ t, exec (.xlat a) s = .next t ∧
    t = { s with fault := t.fault, faultLog := t.faultLog, response := t.response } ∧
    (s.regs.bankControl.toNat ≤ 10 → t.fault = s.fault ∧ t.faultLog = s.faultLog)) ∧
  (∀ (a : FlashAddr) (s u : State), u.regs.bankControl = s.regs.bankControl →
    ∃ t v, exec (.xlat a) s = .next t ∧ exec (.xlat a) u = .next v ∧
      (s.regs.bankControl.toNat ≤ 10 →
        ∃ r, t.response = some (.translation 1 r) ∧ v.response = some (.translation 1 r)) ∧
      (10 < s.regs.bankControl.toNat →
        ∀ r, t.response ≠ some (.translation 1 r) ∧ v.response ≠ some (.translation 1 r)))

/-- R27: no operation writes `recovery_active`; a register-1 write with bit 7 set is a fault, not a write of this flag. -/
def Obligations.NoOperationWritesRecoveryFlag : Prop :=
  (∀ (i : Instr) (s t : State), exec i s = .next t → t.regs.recoveryActive = s.regs.recoveryActive) ∧
  (∀ (i : BitVec 7) (s : State), ∃ t, exec (.wr1Rsv i) s = .next t ∧ t.regs = s.regs ∧ t.fault.faulted = 1)

/-- R126: a register-0 write changes no field of register 1, a register-1 write does not change `led`, and neither changes
the fault record except by faulting, which stores nothing. The writes are those of any byte. -/
def Obligations.RegisterWritesAreIndependent : Prop :=
  ∀ (s : State) (v : Byte),
    (∃ t, exec (decode (.transaction (0x1000000#26 ||| v.setWidth 26))) s = .next t ∧
      t.regs = { s.regs with led := t.regs.led } ∧
      (t.fault = s.fault ∧ t.faultLog = s.faultLog ∨ t.regs = s.regs ∧ t.faultLog.length = s.faultLog.length + 1)) ∧
    (∃ t, exec (decode (.transaction (0x1000100#26 ||| v.setWidth 26))) s = .next t ∧
      t.regs.led = s.regs.led ∧ t.regs.recoveryActive = s.regs.recoveryActive ∧
      (t.fault = s.fault ∧ t.faultLog = s.faultLog ∨ t.regs = s.regs ∧ t.faultLog.length = s.faultLog.length + 1))

/-- R181 (the spec's decision D6): a faulting operation writes no field of the RegisterFile; the state after it is the state
before plus the fault record (and the response, R184 to R186). -/
def Obligations.FaultingOperationWritesNoRegister : Prop :=
  ∀ (i : Instr) (s t : State), exec i s = .next t → t.faultLog ≠ s.faultLog →
    t = { s with fault := t.fault, faultLog := t.faultLog, response := t.response } ∧
      ∃ e, t.faultLog = s.faultLog ++ [e]

/-- R182, R191, R192 (the spec's decision D6): the first fault enters the record, later ones only the log, and no operation
clears the record. -/
def Obligations.RecordKeepsTheFirstFault : Prop :=
  ∀ (i : Instr) (s t : State), exec i s = .next t →
    (s.fault.faulted = 1 → t.fault = s.fault) ∧
    (t.faultLog = s.faultLog → t.fault = s.fault) ∧
    (∀ e, t.faultLog = s.faultLog ++ [e] →
      t.fault.faulted = 1 ∧
        (s.fault.faulted = 0 → t.fault = { faulted := 1, code := faultCode e.cause, info := e.info }))

/-- R188 (the spec's decision D8): under CONTINUE a transaction does the same whatever faults were recorded before it, but
for the record and the log. -/
def Obligations.ContinueRunsAsIfNoFault : Prop :=
  ∀ (s t : State) (f : FaultRecord) (l : List FaultEntry), s.params.onFault = .continuing → step s = .next t →
    ∃ g m, step { s with fault := f, faultLog := l } = .next { t with fault := g, faultLog := m } ∧
      (f.faulted = 1 → g = f)

/-- R163 (the spec's decisions D5, D8): while `bank_control` holds 11 to 15 every translation faults, and it keeps doing so
until a register-1 write of a code 0 to 10. -/
def Obligations.UndefinedBankPersists : Prop :=
  (∀ (a : FlashAddr) (s : State), 10 < s.regs.bankControl.toNat →
    ∃ t paddr, exec (.xlat a) s = .next t ∧ t.response = some (.translation 0 paddr) ∧
      t.faultLog = s.faultLog ++ [{ cause := .undefinedBank, info := 0x2000000#30 ||| a.setWidth 30 }]) ∧
  (∀ (i : Instr) (s t : State), 10 < s.regs.bankControl.toNat → exec i s = .next t →
    (∀ c k d b, i = .wr1 c k d b → 10 < b.toNat) → 10 < t.regs.bankControl.toNat)

/-- R216, R61: the translation right after a register-1 write already uses the new bank. -/
def Obligations.NewBankAppliesAtOnce : Prop :=
  ∀ (s : State) (v : Byte) (a : FlashAddr) (rest : List Input), s.isHalted = false →
    v.toNat < 128 → v.toNat % 16 ≤ 10 →
    s.stream =
      .transaction (0x1000100#26 ||| v.setWidth 26) :: .transaction (0x2000000#26 ||| a.setWidth 26) :: rest →
      ∃ t u p r, step s = .next t ∧ step t = .next u ∧ u.stream = rest ∧
        bankEncoding (BitVec.ofNat 4 v.toNat) = some p ∧ applyMask p a = some r ∧
        u.response = some (.translation 1 r)

/-- R58 (derived there from R120, R122): a successful write done twice leaves what it leaves once. -/
def Obligations.RepeatedWriteChangesNothing : Prop :=
  ∀ (i : Instr) (s t : State), ((∃ v, i = .wr0 v) ∨ ∃ c k d b, i = .wr1 c k d b) →
    exec i s = .next t → t.faultLog = s.faultLog → exec i t = .next t

/-- R143 (derived there from R140, R141): no read's response depends on `led`, `clock`, `chip_select` or `data_in`. -/
def Obligations.ReadsIgnoreWriteOnlyFields : Prop :=
  ∀ (s : State) (led : BitVec 3) (c k d : Bit) (v : Byte),
    ∀ i, (i = .rd0 v ∨ i = .rd1 v ∨ ∃ x, i = .rdUnknown x v) →
      ∃ t u, exec i s = .next t ∧
        exec i { s with regs := { s.regs with led := led, clock := c, chipSelect := k, dataIn := d } } = .next u ∧
        u.response = t.response

/-- R142 (derived there from R141): two register-1 reads under one bank code differ at most in bits 7, 5 and 4, and not at
all under `DOUT_SOURCE = ZERO` and `RECOVERY_SOURCE = HELD`. -/
def Obligations.ReadsDifferOnlyInInputLines : Prop :=
  ∀ (s u : State) (v w : Byte), u.params = s.params → u.regs.bankControl = s.regs.bankControl →
    u.regs.recoveryActive = s.regs.recoveryActive →
      ∃ s' u' b b', exec (.rd1 v) s = .next s' ∧ exec (.rd1 w) u = .next u' ∧
        s'.response = some (.byte b) ∧ u'.response = some (.byte b') ∧
        b &&& 0x4F = b' &&& 0x4F ∧
        (s.params.doutSource = .zero → s.params.recoverySource = .held → b = b')

/-! ### Invariants -/

/-- R182, R25, R28, R187 (the spec's decisions D5, D6, D8, D11): every step keeps the machine's invariant (Safety.lean):
the record is that of the first logged fault; under EAGER the bank code is defined; the recovery flag keeps its reset
value; under HALT there is at most one fault. -/
def Obligations.StepKeepsTheMachineInvariant : Prop :=
  ∀ s t : State, s.Inv → step s = .next t → t.Inv

/-- R210: the invariant holds right after attach, under any parameters. -/
def Obligations.AttachMeetsTheMachineInvariant : Prop :=
  (∀ p : Config.Params, (State.attach p).Inv) ∧ State.reset.Inv

/-- R180: under the invariant the recorded code is 0 exactly where no fault is recorded, and never 8 to 15; a register-1
read under HELD has bit 7 set (R28). -/
def Obligations.InvariantBoundsCodeAndRecoveryBit : Prop :=
  ∀ s : State, s.Inv →
    (s.fault.code = 0 ↔ s.fault.faulted = 0) ∧ s.fault.code.toNat ≤ 7 ∧
    (s.params.recoverySource = .held → ∀ v : Byte, ∃ t b, exec (.rd1 v) s = .next t ∧
      t.response = some (.byte b) ∧ b.getLsbD 7 = true)

/-- R44: the parameters are fixed, and a step takes at most one input of the stream; before each transaction the input
lines get new levels, so what they held does not matter (log 3). -/
def Obligations.StepTakesOneTransaction : Prop :=
  (∀ s t : State, step s = .next t →
    t.params = s.params ∧ t.regs.recoveryActive = s.regs.recoveryActive ∧
    ((s.stream = [] ∧ t = s) ∨ (∃ x, s.stream = x :: t.stream ∧ t.draws = s.draws + 1))) ∧
  (∀ (s : State) (l : InputLines), s.stream ≠ [] → step { s with lines := l } = step s)

/-- R213 (derived there from R210): right after attach the block translates through the loader bank, and under HELD a
register-1 read answers `0x81 | (d1 << 5) | (d4 << 4)`: `d1` and `d4` are 0 under ZERO and the levels of the two data-out
lines under EXTERNAL (the spec's decision D10; log 3). -/
def Obligations.AttachedBlockUsesLoaderBank : Prop :=
  ∀ (p : Config.Params),
    (∀ a : FlashAddr, ∃ t, exec (.xlat a) (State.attach p) = .next t ∧
      t.response = some (.translation 1 (a.extractLsb' 21 3 ++ 0b110#3 ++ a.extractLsb' 0 18))) ∧
    (p.recoverySource = .held → ∀ (v : Byte) (l : InputLines), ∃ t d1 d4,
      exec (.rd1 v) { State.attach p with lines := l } = .next t ∧
      t.response = some (.byte (0x81#8 ||| (BitVec.setWidth 8 d1 <<< 5) ||| (BitVec.setWidth 8 d4 <<< 4))) ∧
      (p.doutSource = .zero → d1 = 0#1 ∧ d4 = 0#1) ∧
      (p.doutSource = .line → d1 = l.dataOut1 ∧ d4 = l.dataOut4))

/-! ### The outside -/

/-- R41 (the fault outputs are the spec's decision D6): each output is the current value of its field, and changes only
where that field is written: LED by WR0, the SPI lines by WR1, the fault outputs by a first fault. -/
def Obligations.OutputsChangeOnlyWithTheirFields : Prop :=
  (∀ s : State,
    (outputPorts s).led = s.regs.led ∧ (outputPorts s).spiClk = s.regs.clock ∧
    (outputPorts s).spiCs = s.regs.chipSelect ∧ (outputPorts s).spiDin = s.regs.dataIn ∧
    (outputPorts s).fault = s.fault.faulted ∧ (outputPorts s).faultCode = s.fault.code ∧
    (outputPorts s).faultInfo = s.fault.info) ∧
  ∀ (i : Instr) (s t : State), exec i s = .next t →
    ((outputPorts t).led ≠ (outputPorts s).led → ∃ v, i = .wr0 v ∧ (outputPorts t).led = v) ∧
    ((outputPorts t).spiClk ≠ (outputPorts s).spiClk ∨ (outputPorts t).spiCs ≠ (outputPorts s).spiCs ∨
        (outputPorts t).spiDin ≠ (outputPorts s).spiDin →
      ∃ b, i = .wr1 (outputPorts t).spiClk (outputPorts t).spiCs (outputPorts t).spiDin b) ∧
    ((outputPorts t).fault ≠ (outputPorts s).fault ∨ (outputPorts t).faultCode ≠ (outputPorts s).faultCode ∨
        (outputPorts t).faultInfo ≠ (outputPorts s).faultInfo →
      (outputPorts s).fault = 0 ∧ (outputPorts t).fault = 1 ∧
        ∃ e, t.faultLog = s.faultLog ++ [e] ∧ (outputPorts t).faultCode = faultCode e.cause ∧
          (outputPorts t).faultInfo = e.info)

/-- R52, R53, R56 (the spec's decisions D3, D14, D15), for every base port: a one-byte access to `BASE_PORT + n` is the
transaction of register index n; an access of any other width is refused; so is a port below the base or out of the
index's 16 bits (the model's choice, log 14). -/
def Obligations.PortAccessesBecomeTransactions : Prop :=
  ∀ base : Nat,
    (∀ (n : Nat) (v : Byte), n < 2 ^ 16 →
      accessInput base (.read (base + n) 1) = .next (.transaction (BitVec.ofNat 26 (n * 256))) ∧
      accessInput base (.write (base + n) [v]) =
        .next (.transaction (BitVec.ofNat 26 (0x1000000 + n * 256 + v.toNat)))) ∧
    (∀ port nbytes : Nat, nbytes ≠ 1 → accessInput base (.read port nbytes) = .refused .portWidth) ∧
    (∀ (port : Nat) (bytes : List Byte), bytes.length ≠ 1 →
      accessInput base (.write port bytes) = .refused .portWidth) ∧
    (∀ (port : Nat) (v : Byte), port < base ∨ base + 2 ^ 16 ≤ port →
      accessInput base (.read port 1) = .refused .portOutOfReach ∧
      accessInput base (.write port [v]) = .refused .portOutOfReach) ∧
    (∀ a : FlashAddr, accessInput base (.translate a) = .next (.transaction (BitVec.ofNat 26 (0x2000000 + a.toNat))))

/-- R191, R211 (the spec's decisions D6, D13): a detach and attach gives the reset state of R210 again, and so clears the
fault record; the parameters, the host's stream and the count of free values are not the device's (log 17). -/
def Obligations.ReattachGivesTheResetState : Prop :=
  ∀ s : State,
    (reattach s).regs = State.reset.regs ∧ (reattach s).fault = State.reset.fault ∧ (reattach s).faultLog = [] ∧
    (reattach s).response = none ∧ (reattach s).params = s.params ∧ (reattach s).stream = s.stream ∧
    (reattach s).draws = s.draws ∧ (reattach s).isHalted = false
end

