-- ==== Sys2Proof/Laws/Decode.lean ====
section
/-!
SUPPORT. The decoder over the fields of a word: a transaction word is its kind, index and data (R70), a row's test is a
test of each field, and so the opcode map is a case analysis on kind, index and data.
-/

namespace Sys2Proof

/-- Two concatenations of the same widths are equal where their parts are. -/
theorem append_eq_append_iff {n m : Nat} (a b : BitVec n) (c d : BitVec m) : a ++ c = b ++ d ↔ a = b ∧ c = d := by
  constructor
  · intro h
    constructor
    · calc a = (a ++ c).extractLsb' m n := BitVec.extractLsb'_append_eq_left.symm
        _ = (b ++ d).extractLsb' m n := by rw [h]
        _ = b := BitVec.extractLsb'_append_eq_left
    · calc c = (a ++ c).extractLsb' 0 m := BitVec.extractLsb'_append_eq_right.symm
        _ = (b ++ d).extractLsb' 0 m := by rw [h]
        _ = d := BitVec.extractLsb'_append_eq_right
  · rintro ⟨rfl, rfl⟩
    rfl

/-- The kind field, `t[25:24]` (R70). -/
abbrev wordKind (t : TransWord) : BitVec 2 := t.extractLsb' 24 2

/-- A word is its kind, its index and its data. -/
theorem word_split (t : TransWord) : wordKind t ++ wordIndex t ++ wordData t = t := by
  rw [wordKind, wordIndex, wordData, BitVec.extractLsb'_append_extractLsb'_eq_extractLsb' (by rfl),
    BitVec.extractLsb'_append_extractLsb'_eq_extractLsb' (by rfl)]
  exact BitVec.extractLsb'_eq_self

@[simp] theorem wordKind_append (k : BitVec 2) (i : RegIndex) (d : Byte) :
    wordKind (k ++ i ++ d) = k := by
  rw [wordKind, BitVec.extractLsb'_append_eq_of_le (by decide)]
  exact BitVec.extractLsb'_append_eq_left

@[simp] theorem wordIndex_append (k : BitVec 2) (i : RegIndex) (d : Byte) :
    wordIndex (k ++ i ++ d) = i := by
  rw [wordIndex, BitVec.extractLsb'_append_eq_of_le (by decide)]
  exact BitVec.extractLsb'_append_eq_right

@[simp] theorem wordData_append (k : BitVec 2) (i : RegIndex) (d : Byte) :
    wordData (k ++ i ++ d) = d := BitVec.extractLsb'_append_eq_right

/-- A field inside the data byte is read from the data byte. -/
theorem extract_word_data (k : BitVec 2) (i : RegIndex) (d : Byte) {start len : Nat} (h : start + len ≤ 8) :
    (k ++ i ++ d).extractLsb' start len = d.extractLsb' start len :=
  BitVec.extractLsb'_append_eq_of_add_le h

/-- A row's test is a test of each field. -/
theorem hitsRow_append (k kf km : BitVec 2) (i f m : RegIndex) (d df dm : Byte) :
    hitsRow (k ++ i ++ d) (kf ++ f ++ df) (km ++ m ++ dm) = true ↔
      k &&& km = kf ∧ i &&& m = f ∧ d &&& dm = df := by
  simp only [hitsRow, beq_iff_eq]
  rw [BitVec.and_append, BitVec.and_append, append_eq_append_iff, append_eq_append_iff, and_assoc]

theorem index_and_ones (i : RegIndex) : i &&& 0xFFFF#16 = i := BitVec.and_allOnes

theorem kind_and_ones (k : BitVec 2) : k &&& 3#2 = k := BitVec.and_allOnes

/-! One lemma per row of R79. -/

theorem hits_wr0 (k : BitVec 2) (i : RegIndex) (d : Byte) :
    hitsRow (k ++ i ++ d) 0x1000000#26 0x3FFFFF8#26 = true ↔ k = 1#2 ∧ i = 0#16 ∧ d &&& 0xF8#8 = 0#8 := by
  have h := hitsRow_append k 1#2 3#2 i 0#16 0xFFFF#16 d 0#8 0xF8#8
  simp only [kind_and_ones, index_and_ones] at h
  exact h

theorem hits_wr0Rsv (k : BitVec 2) (i : RegIndex) (d : Byte) :
    hitsRow (k ++ i ++ d) 0x1000000#26 0x3FFFF00#26 = true ↔ k = 1#2 ∧ i = 0#16 := by
  have h := hitsRow_append k 1#2 3#2 i 0#16 0xFFFF#16 d 0#8 0#8
  simp only [kind_and_ones, index_and_ones, BitVec.and_zero, and_true] at h
  exact h

theorem hits_wr1 (k : BitVec 2) (i : RegIndex) (d : Byte) :
    hitsRow (k ++ i ++ d) 0x1000100#26 0x3FFFF80#26 = true ↔ k = 1#2 ∧ i = 1#16 ∧ d &&& 0x80#8 = 0#8 := by
  have h := hitsRow_append k 1#2 3#2 i 1#16 0xFFFF#16 d 0#8 0x80#8
  simp only [kind_and_ones, index_and_ones] at h
  exact h

theorem hits_wr1Rsv (k : BitVec 2) (i : RegIndex) (d : Byte) :
    hitsRow (k ++ i ++ d) 0x1000180#26 0x3FFFF80#26 = true ↔ k = 1#2 ∧ i = 1#16 ∧ d &&& 0x80#8 = 0x80#8 := by
  have h := hitsRow_append k 1#2 3#2 i 1#16 0xFFFF#16 d 0x80#8 0x80#8
  simp only [kind_and_ones, index_and_ones] at h
  exact h

theorem hits_rd0 (k : BitVec 2) (i : RegIndex) (d : Byte) :
    hitsRow (k ++ i ++ d) 0x0000000#26 0x3FFFF00#26 = true ↔ k = 0#2 ∧ i = 0#16 := by
  have h := hitsRow_append k 0#2 3#2 i 0#16 0xFFFF#16 d 0#8 0#8
  simp only [kind_and_ones, index_and_ones, BitVec.and_zero, and_true] at h
  exact h

theorem hits_rd1 (k : BitVec 2) (i : RegIndex) (d : Byte) :
    hitsRow (k ++ i ++ d) 0x0000100#26 0x3FFFF00#26 = true ↔ k = 0#2 ∧ i = 1#16 := by
  have h := hitsRow_append k 0#2 3#2 i 1#16 0xFFFF#16 d 0#8 0#8
  simp only [kind_and_ones, index_and_ones, BitVec.and_zero, and_true] at h
  exact h

theorem hits_kind1 (k : BitVec 2) (i : RegIndex) (d : Byte) :
    hitsRow (k ++ i ++ d) 0x1000000#26 0x3000000#26 = true ↔ k = 1#2 := by
  have h := hitsRow_append k 1#2 3#2 i 0#16 0#16 d 0#8 0#8
  simp only [kind_and_ones, BitVec.and_zero, and_true] at h
  exact h

theorem hits_kind2 (k : BitVec 2) (i : RegIndex) (d : Byte) :
    hitsRow (k ++ i ++ d) 0x2000000#26 0x3000000#26 = true ↔ k = 2#2 := by
  have h := hitsRow_append k 2#2 3#2 i 0#16 0#16 d 0#8 0#8
  simp only [kind_and_ones, BitVec.and_zero, and_true] at h
  exact h

theorem hits_kind3 (k : BitVec 2) (i : RegIndex) (d : Byte) :
    hitsRow (k ++ i ++ d) 0x3000000#26 0x3000000#26 = true ↔ k = 3#2 := by
  have h := hitsRow_append k 3#2 3#2 i 0#16 0#16 d 0#8 0#8
  simp only [kind_and_ones, BitVec.and_zero, and_true] at h
  exact h

theorem hits_kind0 (k : BitVec 2) (i : RegIndex) (d : Byte) :
    hitsRow (k ++ i ++ d) 0x0000000#26 0x3000000#26 = true ↔ k = 0#2 := by
  have h := hitsRow_append k 0#2 3#2 i 0#16 0#16 d 0#8 0#8
  simp only [kind_and_ones, BitVec.and_zero, and_true] at h
  exact h

/-- An address behind a kind, by its upper 16 and lower 8 bits. -/
theorem append_addr (k : BitVec 2) (a : FlashAddr) :
    (k ++ a.extractLsb' 8 16 ++ a.extractLsb' 0 8 : BitVec (2 + 16 + 8)) = (k ++ a : BitVec (2 + 24)) := by
  rw [BitVec.append_assoc]
  rw [BitVec.extractLsb'_append_extractLsb'_eq_extractLsb' (by rfl), BitVec.extractLsb'_eq_self]
  rfl

theorem kind_cases (k : BitVec 2) : k = 0#2 ∨ k = 1#2 ∨ k = 2#2 ∨ k = 3#2 := by
  revert k
  decide

/-- The bits of a data byte under the masks of R79. -/
theorem data_bit7_cases (d : Byte) : d &&& 0x80#8 = 0 ∨ d &&& 0x80#8 = 0x80#8 := by
  revert d
  decide

/-- The opcode map over the fields of the word (R79). -/
theorem decodeTransaction_fields (k : BitVec 2) (i : RegIndex) (d : Byte) :
    decodeTransaction (k ++ i ++ d) =
      if k = 1 then
        if i = 0 then if d &&& 0xF8#8 = 0 then .wr0 (d.extractLsb' 0 3) else .wr0Rsv d
        else if i = 1 then
          if d &&& 0x80#8 = 0 then
            .wr1 (d.extractLsb' 6 1) (d.extractLsb' 5 1) (d.extractLsb' 4 1) (d.extractLsb' 0 4)
          else .wr1Rsv (d.extractLsb' 0 7)
        else .wrUnknown i d
      else if k = 0 then if i = 0 then .rd0 d else if i = 1 then .rd1 d else .rdUnknown i d
      else if k = 2 then .xlat ((k ++ i ++ d).extractLsb' 0 24)
      else .reservedKind3 ((k ++ i ++ d).extractLsb' 0 24) := by
  simp only [decodeTransaction, hits_wr0, hits_wr0Rsv, hits_wr1, hits_wr1Rsv, hits_rd0, hits_rd1, hits_kind1,
    hits_kind2, hits_kind3, wordIndex_append, wordData_append]
  rw [extract_word_data k i d (start := 0) (len := 3) (by decide), extract_word_data k i d (start := 6) (len := 1) (by decide),
    extract_word_data k i d (start := 5) (len := 1) (by decide), extract_word_data k i d (start := 4) (len := 1) (by decide),
    extract_word_data k i d (start := 0) (len := 4) (by decide), extract_word_data k i d (start := 0) (len := 7) (by decide)]
  rcases kind_cases k with rfl | rfl | rfl | rfl
  · by_cases h0 : i = 0#16 <;> by_cases h1 : i = 1#16 <;> simp [h0, h1]
  · by_cases h0 : i = 0#16
    · by_cases h3 : d &&& 0xF8#8 = 0#8 <;> simp [h0, h3]
    · by_cases h1 : i = 1#16
      · rcases data_bit7_cases d with h7 | h7 <;> simp [h1, h7]
      · simp [h0, h1]
  · simp
  · simp

end Sys2Proof
end

