-- ==== Sys2Proof/Laws/State.lean ====
section
/-!
SUPPORT. One lemma per field per update of State, each true by unfolding the update once.
-/

namespace Sys2Proof.Machine

/-! ### respond -/

@[simp] theorem State.respond_params (r : Option Response) (s : State) :
    (s.respond r).params = s.params := rfl

@[simp] theorem State.respond_regs (r : Option Response) (s : State) :
    (s.respond r).regs = s.regs := rfl

@[simp] theorem State.respond_lines (r : Option Response) (s : State) :
    (s.respond r).lines = s.lines := rfl

@[simp] theorem State.respond_fault (r : Option Response) (s : State) :
    (s.respond r).fault = s.fault := rfl

@[simp] theorem State.respond_faultLog (r : Option Response) (s : State) :
    (s.respond r).faultLog = s.faultLog := rfl

@[simp] theorem State.respond_response (r : Option Response) (s : State) :
    (s.respond r).response = r := rfl

@[simp] theorem State.respond_stream (r : Option Response) (s : State) :
    (s.respond r).stream = s.stream := rfl

@[simp] theorem State.respond_draws (r : Option Response) (s : State) :
    (s.respond r).draws = s.draws := rfl

/-! ### writeLed -/

@[simp] theorem State.writeLed_params (led : BitVec 3) (s : State) :
    (s.writeLed led).params = s.params := rfl

@[simp] theorem State.writeLed_regs (led : BitVec 3) (s : State) :
    (s.writeLed led).regs = { s.regs with led := led } := rfl

@[simp] theorem State.writeLed_lines (led : BitVec 3) (s : State) :
    (s.writeLed led).lines = s.lines := rfl

@[simp] theorem State.writeLed_fault (led : BitVec 3) (s : State) :
    (s.writeLed led).fault = s.fault := rfl

@[simp] theorem State.writeLed_faultLog (led : BitVec 3) (s : State) :
    (s.writeLed led).faultLog = s.faultLog := rfl

@[simp] theorem State.writeLed_response (led : BitVec 3) (s : State) :
    (s.writeLed led).response = s.response := rfl

@[simp] theorem State.writeLed_stream (led : BitVec 3) (s : State) :
    (s.writeLed led).stream = s.stream := rfl

@[simp] theorem State.writeLed_draws (led : BitVec 3) (s : State) :
    (s.writeLed led).draws = s.draws := rfl

/-! ### writeControl -/

@[simp] theorem State.writeControl_params (c k d : Bit) (b : BankCode) (s : State) :
    (s.writeControl c k d b).params = s.params := rfl

@[simp] theorem State.writeControl_regs (c k d : Bit) (b : BankCode) (s : State) :
    (s.writeControl c k d b).regs = { s.regs with clock := c, chipSelect := k, dataIn := d, bankControl := b } := rfl

@[simp] theorem State.writeControl_lines (c k d : Bit) (b : BankCode) (s : State) :
    (s.writeControl c k d b).lines = s.lines := rfl

@[simp] theorem State.writeControl_fault (c k d : Bit) (b : BankCode) (s : State) :
    (s.writeControl c k d b).fault = s.fault := rfl

@[simp] theorem State.writeControl_faultLog (c k d : Bit) (b : BankCode) (s : State) :
    (s.writeControl c k d b).faultLog = s.faultLog := rfl

@[simp] theorem State.writeControl_response (c k d : Bit) (b : BankCode) (s : State) :
    (s.writeControl c k d b).response = s.response := rfl

@[simp] theorem State.writeControl_stream (c k d : Bit) (b : BankCode) (s : State) :
    (s.writeControl c k d b).stream = s.stream := rfl

@[simp] theorem State.writeControl_draws (c k d : Bit) (b : BankCode) (s : State) :
    (s.writeControl c k d b).draws = s.draws := rfl

/-! ### raise -/

@[simp] theorem State.raise_params (f : FaultCause) (x : FaultInfo) (s : State) :
    (s.raise f x).params = s.params := rfl

@[simp] theorem State.raise_regs (f : FaultCause) (x : FaultInfo) (s : State) :
    (s.raise f x).regs = s.regs := rfl

@[simp] theorem State.raise_lines (f : FaultCause) (x : FaultInfo) (s : State) :
    (s.raise f x).lines = s.lines := rfl

@[simp] theorem State.raise_fault (f : FaultCause) (x : FaultInfo) (s : State) :
    (s.raise f x).fault = s.fault.record f x := rfl

@[simp] theorem State.raise_faultLog (f : FaultCause) (x : FaultInfo) (s : State) :
    (s.raise f x).faultLog = s.faultLog ++ [{ cause := f, info := x }] := rfl

@[simp] theorem State.raise_response (f : FaultCause) (x : FaultInfo) (s : State) :
    (s.raise f x).response = s.response := rfl

@[simp] theorem State.raise_stream (f : FaultCause) (x : FaultInfo) (s : State) :
    (s.raise f x).stream = s.stream := rfl

@[simp] theorem State.raise_draws (f : FaultCause) (x : FaultInfo) (s : State) :
    (s.raise f x).draws = s.draws := rfl

/-! ### present -/

@[simp] theorem State.present_params (rest : List Input) (s : State) :
    (s.present rest).params = s.params := rfl

@[simp] theorem State.present_regs (rest : List Input) (s : State) :
    (s.present rest).regs = s.regs := rfl

@[simp] theorem State.present_lines (rest : List Input) (s : State) :
    (s.present rest).lines =
      { dataOut1 := Config.dataOut1Level s.draws
        dataOut4 := Config.dataOut4Level s.draws
        recoveryN := Config.recoveryLevel s.draws } := rfl

@[simp] theorem State.present_fault (rest : List Input) (s : State) :
    (s.present rest).fault = s.fault := rfl

@[simp] theorem State.present_faultLog (rest : List Input) (s : State) :
    (s.present rest).faultLog = s.faultLog := rfl

@[simp] theorem State.present_response (rest : List Input) (s : State) :
    (s.present rest).response = s.response := rfl

@[simp] theorem State.present_stream (rest : List Input) (s : State) :
    (s.present rest).stream = rest := rfl

@[simp] theorem State.present_draws (rest : List Input) (s : State) :
    (s.present rest).draws = s.draws + 1 := rfl

/-! ### presentFirst -/

@[simp] theorem State.presentFirst_params (x : Input) (s : State) :
    (s.presentFirst x).params = s.params := rfl

@[simp] theorem State.presentFirst_regs (x : Input) (s : State) :
    (s.presentFirst x).regs = s.regs := rfl

@[simp] theorem State.presentFirst_lines (x : Input) (s : State) :
    (s.presentFirst x).lines = s.lines := rfl

@[simp] theorem State.presentFirst_fault (x : Input) (s : State) :
    (s.presentFirst x).fault = s.fault := rfl

@[simp] theorem State.presentFirst_faultLog (x : Input) (s : State) :
    (s.presentFirst x).faultLog = s.faultLog := rfl

@[simp] theorem State.presentFirst_response (x : Input) (s : State) :
    (s.presentFirst x).response = s.response := rfl

@[simp] theorem State.presentFirst_stream (x : Input) (s : State) :
    (s.presentFirst x).stream = x :: s.stream := rfl

@[simp] theorem State.presentFirst_draws (x : Input) (s : State) :
    (s.presentFirst x).draws = s.draws := rfl

/-! ### enqueue -/

@[simp] theorem State.enqueue_params (x : Input) (s : State) :
    (s.enqueue x).params = s.params := rfl

@[simp] theorem State.enqueue_regs (x : Input) (s : State) :
    (s.enqueue x).regs = s.regs := rfl

@[simp] theorem State.enqueue_lines (x : Input) (s : State) :
    (s.enqueue x).lines = s.lines := rfl

@[simp] theorem State.enqueue_fault (x : Input) (s : State) :
    (s.enqueue x).fault = s.fault := rfl

@[simp] theorem State.enqueue_faultLog (x : Input) (s : State) :
    (s.enqueue x).faultLog = s.faultLog := rfl

@[simp] theorem State.enqueue_response (x : Input) (s : State) :
    (s.enqueue x).response = s.response := rfl

@[simp] theorem State.enqueue_stream (x : Input) (s : State) :
    (s.enqueue x).stream = s.stream ++ [x] := rfl

@[simp] theorem State.enqueue_draws (x : Input) (s : State) :
    (s.enqueue x).draws = s.draws := rfl

end Sys2Proof.Machine
end

