-- ==== Sys2Proof/Laws/Ops.lean ====
section
/-!
SUPPORT. What the shared operations can do, said once: the fault record (R182), the halted device (R187), fetching.
-/

namespace Sys2Proof.Machine

/-- The first fault enters a clear record. -/
theorem FaultRecord.record_of_clear {r : FaultRecord} (h : r.faulted = 0) (f : FaultCause) (x : FaultInfo) :
    r.record f x = { faulted := 1, code := faultCode f, info := x } := by
  simp [FaultRecord.record, h]

/-- A one-bit value is 0 or 1. -/
theorem bit_cases (b : Bit) : b = 0 ∨ b = 1 := by
  revert b
  decide

/-- A record that holds a fault is not changed by a further one (R182, R192). -/
theorem FaultRecord.record_of_set {r : FaultRecord} (h : r.faulted = 1) (f : FaultCause) (x : FaultInfo) :
    r.record f x = r := by
  obtain ⟨b, c, i⟩ := r
  simp only at h
  subst h
  simp [FaultRecord.record]

/-- Every fault leaves `faulted` set. -/
@[simp] theorem FaultRecord.record_faulted (r : FaultRecord) (f : FaultCause) (x : FaultInfo) :
    (r.record f x).faulted = 1 := by
  unfold FaultRecord.record
  split <;> rfl

/-- The halted device, as R187 describes it. -/
theorem State.isHalted_iff (s : State) :
    s.isHalted = true ↔ s.fault.faulted = 1 ∧ s.params.onFault = .halting := by
  simp [State.isHalted]

/-- A device that may step has a clear record or runs under `CONTINUE`. -/
theorem State.not_isHalted_iff (s : State) :
    s.isHalted = false ↔ s.fault.faulted = 0 ∨ s.params.onFault = .continuing := by
  cases h : s.params.onFault <;> rcases bit_cases s.fault.faulted with hf | hf <;>
    simp [State.isHalted, h, hf]

theorem fetch_halted {s : State} (h : s.isHalted = true) : fetch s = .fault .halted := by
  simp [fetch, h]

theorem fetch_idle {s : State} (h : s.isHalted = false) (he : s.stream = []) : fetch s = .next none := by
  simp [fetch, h, he]

theorem fetch_cons {s : State} {x : Input} {rest : List Input} (h : s.isHalted = false)
    (he : s.stream = x :: rest) : fetch s = .next (some (decode x, s.present rest)) := by
  simp [fetch, h, he]

/-- The fault a halted device answers is the one way fetching stops. -/
theorem fetch_cases (s : State) :
    (s.isHalted = true ∧ fetch s = .fault .halted) ∨
    (s.isHalted = false ∧ s.stream = [] ∧ fetch s = .next none) ∨
    (∃ x rest, s.isHalted = false ∧ s.stream = x :: rest ∧
      fetch s = .next (some (decode x, s.present rest))) := by
  cases h : s.isHalted with
  | true => exact .inl ⟨rfl, fetch_halted h⟩
  | false =>
    cases he : s.stream with
    | nil => exact .inr (.inl ⟨rfl, rfl, fetch_idle h he⟩)
    | cons x rest => exact .inr (.inr ⟨x, rest, rfl, rfl, fetch_cons h he⟩)

end Sys2Proof.Machine
end

