-- ==== Sys2Proof/Laws/Exec.lean ====
section
/-!
SUPPORT. What an operation and a step can do, said once: every next state of `exec` is the old one with a response and at
most one of the three updates (a register-0 store, a register-1 store, a fault).
-/

namespace Sys2Proof.Machine

/-- The four shapes of a next state. -/
theorem exec_cases {i : Instr} {s t : State} (h : exec i s = .next t) :
    (∃ r, t = s.respond r) ∨
    (∃ led, i = .wr0 led ∧ t = (s.writeLed led).respond none) ∨
    (∃ c k d b, i = .wr1 c k d b ∧ ¬ (s.params.bankValidation = .eager ∧ lastBank < b) ∧
      t = (s.writeControl c k d b).respond none) ∨
    (∃ f x r, t = (s.raise f x).respond r) := by
  cases i with
  | wr0 led =>
    simp only [exec, execWr0, Host.Outcome.next.injEq] at h
    exact .inr (.inl ⟨led, rfl, h.symm⟩)
  | wr0Rsv data =>
    simp only [exec, execWr0Rsv, Host.Outcome.next.injEq] at h
    exact .inr (.inr (.inr ⟨_, _, _, h.symm⟩))
  | wr1 c k d b =>
    simp only [exec, execWr1] at h
    split at h
    · simp only [Host.Outcome.next.injEq] at h
      exact .inr (.inr (.inr ⟨_, _, _, h.symm⟩))
    · rename_i hb
      simp only [Host.Outcome.next.injEq] at h
      exact .inr (.inr (.inl ⟨c, k, d, b, rfl, hb, h.symm⟩))
  | wr1Rsv data =>
    simp only [exec, execWr1Rsv, Host.Outcome.next.injEq] at h
    exact .inr (.inr (.inr ⟨_, _, _, h.symm⟩))
  | wrUnknown idx data =>
    simp only [exec, execWrUnknown, Host.Outcome.next.injEq] at h
    exact .inr (.inr (.inr ⟨_, _, _, h.symm⟩))
  | rd0 data =>
    simp only [exec, execRd0, Host.Outcome.next.injEq] at h
    exact .inl ⟨_, h.symm⟩
  | rd1 data =>
    simp only [exec, execRd1, Host.Outcome.next.injEq] at h
    exact .inl ⟨_, h.symm⟩
  | rdUnknown idx data =>
    simp only [exec, execRdUnknown, Host.Outcome.next.injEq] at h
    exact .inr (.inr (.inr ⟨_, _, _, h.symm⟩))
  | xlat addr =>
    simp only [exec, execXlat] at h
    split at h
    · simp only [Host.Outcome.next.injEq] at h
      exact .inr (.inr (.inr ⟨_, _, _, h.symm⟩))
    · split at h <;> simp only [Host.Outcome.next.injEq] at h
      · exact .inr (.inr (.inr ⟨_, _, _, h.symm⟩))
      · exact .inl ⟨_, h.symm⟩
  | reservedKind3 payload => simp [exec, execReservedKind3] at h
  | applyMask p addr =>
    simp only [exec, execApplyMask] at h
    split at h <;> simp only [Host.Outcome.next.injEq] at h
    · exact .inr (.inr (.inr ⟨_, _, _, h.symm⟩))
    · exact .inl ⟨_, h.symm⟩
  | maskForBank code =>
    simp only [exec, execMaskForBank] at h
    split at h <;> simp only [Host.Outcome.next.injEq] at h
    · exact .inr (.inr (.inr ⟨_, _, _, h.symm⟩))
    · exact .inl ⟨_, h.symm⟩

/-- A step that may be taken is `exec` of the decoded input, in the state that `present` leaves. -/
theorem step_cons {s : State} {x : Input} {rest : List Input} (h : s.isHalted = false)
    (he : s.stream = x :: rest) : step s = exec (decode x) (s.present rest) := by
  simp only [step, fetch_cons h he]

/-- What a step that answers a next state has done. -/
theorem step_cases {s t : State} (h : step s = .next t) :
    s.isHalted = false ∧
      ((s.stream = [] ∧ t = s) ∨
        ∃ x rest, s.stream = x :: rest ∧ exec (decode x) (s.present rest) = .next t) := by
  rcases fetch_cases s with ⟨_, hf⟩ | ⟨hh, he, hf⟩ | ⟨x, rest, hh, he, hf⟩ <;>
    simp only [step, hf] at h
  · cases h
  · simp only [Host.Outcome.next.injEq] at h
    exact ⟨hh, .inl ⟨he, h.symm⟩⟩
  · exact ⟨hh, .inr ⟨x, rest, he, h⟩⟩

end Sys2Proof.Machine
end

