-- ==== Sys2Proof/Laws/Masker.lean ====
section
/-!
SUPPORT. The AddressMasker bit by bit (R100): what a symbol does to its bit, and that it does nothing to any other.
-/

namespace Sys2Proof.Machine

/-- What a symbol makes of the bit it governs. -/
def governed (s : Option Symbol) (old : Bool) : Bool :=
  match s with
  | some .force0 => false
  | some .force1 => true
  | some .pass => old
  | none => old

/-- One bit of the mask with one set bit. -/
theorem getLsbD_oneBit (b i : Nat) (hb : b < 24) : (1#24 <<< b).getLsbD i = decide (i = b) := by
  rw [BitVec.getLsbD_shiftLeft, BitVec.getLsbD_one, Bool.eq_iff_iff]
  simp only [Bool.and_eq_true, decide_eq_true_eq, Bool.not_eq_eq_eq_not, Bool.not_true, decide_eq_false_iff_not]
  omega

/-- A symbol changes the bit it governs, and no other. -/
theorem getLsbD_governBit (s : Option Symbol) (b : Nat) (hb : b < 24) (a : FlashAddr) (i : Nat) :
    (governBit s b a).getLsbD i = if i = b then governed s (a.getLsbD i) else a.getLsbD i := by
  rcases s with _ | (_ | _ | _)
  · simp [governBit, governed]
  · simp only [governBit, governed, BitVec.getLsbD_and, BitVec.getLsbD_not, getLsbD_oneBit b i hb]
    by_cases h : i = b
    · simp [h]
    · by_cases hi : i < 24
      · simp [h, hi]
      · simp [h, BitVec.getLsbD_of_ge a i (by omega)]
  · simp only [governBit, governed, BitVec.getLsbD_or, getLsbD_oneBit b i hb]
    by_cases h : i = b <;> simp [h]
  · simp [governBit, governed]

/-- An illegal pattern has no result. -/
theorem applyMask_illegal {p : Pattern} (h : legalPattern p = false) (a : FlashAddr) : applyMask p a = none := by
  simp [applyMask, h]

/-- A legal pattern has one, and each of its bits is the old one but for the governed bits 20, 19 and 18. -/
theorem applyMask_legal {p : Pattern} (h : legalPattern p = true) (a : FlashAddr) :
    ∃ r, applyMask p a = some r ∧ ∀ i, r.getLsbD i =
      if i = 18 then governed (symbolAt p 2) (a.getLsbD i)
      else if i = 19 then governed (symbolAt p 1) (a.getLsbD i)
      else if i = 20 then governed (symbolAt p 0) (a.getLsbD i)
      else a.getLsbD i := by
  refine ⟨_, by simp [applyMask, h]; rfl, fun i => ?_⟩
  rw [getLsbD_governBit _ (governedBit 2) (by decide), getLsbD_governBit _ (governedBit 1) (by decide),
    getLsbD_governBit _ (governedBit 0) (by decide)]
  simp only [governedBit]
  by_cases h2 : i = 18
  · simp [h2]
  · by_cases h1 : i = 19
    · simp [h1]
    · by_cases h0 : i = 20 <;> simp [h0, h1, h2]

end Sys2Proof.Machine
end

