-- ==== Sys2Proof/Laws/PerInstr.lean ====
section
/-!
SUPPORT. A statement about every operation as syntax, one lemma per constructor: the encoder's word of a well-formed
operation fits the row of R79 that has the operation's name, and a sub-block's input is that sub-block's (R79).
-/

namespace Sys2Proof.Laws.EncodesItsRow

/-- The encoding of `i` fits `i`'s own row. -/
def Statement (i : Instr) : Prop :=
  wellFormed i = true →
    match encode i with
    | .transaction t => ∃ row ∈ opcodeRows, row.mnemonic = i.mnemonic ∧ hitsRow t row.fixed row.mask = true
    | .maskInput _ => i.mnemonic = "APPLY_MASK"
    | .bankInput _ => i.mnemonic = "MASK_FOR_BANK"

theorem wr0 (led : BitVec 3) : Statement (.wr0 led) := fun _ =>
  ⟨opcodeRows[0], by decide, rfl, (hits_wr0 1 0 _).2 ⟨rfl, rfl, by revert led; decide⟩⟩

theorem wr0Rsv (data : Byte) : Statement (.wr0Rsv data) := fun _ =>
  ⟨opcodeRows[1], by decide, rfl, (hits_wr0Rsv 1 0 data).2 ⟨rfl, rfl⟩⟩

theorem wr1 (clock chipSelect dataIn : Bit) (bank : BankCode) : Statement (.wr1 clock chipSelect dataIn bank) := fun _ =>
  ⟨opcodeRows[2], by decide, rfl,
    (hits_wr1 1 1 _).2 ⟨rfl, rfl, by revert clock chipSelect dataIn bank; decide⟩⟩

theorem wr1Rsv (data : BitVec 7) : Statement (.wr1Rsv data) := fun _ =>
  ⟨opcodeRows[3], by decide, rfl, (hits_wr1Rsv 1 1 _).2 ⟨rfl, rfl, by revert data; decide⟩⟩

theorem wrUnknown (idx : RegIndex) (data : Byte) : Statement (.wrUnknown idx data) := fun _ =>
  ⟨opcodeRows[4], by decide, rfl, (hits_kind1 1 idx data).2 rfl⟩

theorem rd0 (data : Byte) : Statement (.rd0 data) := fun _ =>
  ⟨opcodeRows[5], by decide, rfl, (hits_rd0 0 0 data).2 ⟨rfl, rfl⟩⟩

theorem rd1 (data : Byte) : Statement (.rd1 data) := fun _ =>
  ⟨opcodeRows[6], by decide, rfl, (hits_rd1 0 1 data).2 ⟨rfl, rfl⟩⟩

theorem rdUnknown (idx : RegIndex) (data : Byte) : Statement (.rdUnknown idx data) := fun _ =>
  ⟨opcodeRows[7], by decide, rfl, (hits_kind0 0 idx data).2 rfl⟩

theorem xlat (addr : FlashAddr) : Statement (.xlat addr) := fun _ =>
  ⟨opcodeRows[8], by decide, rfl, by
    have h := (hits_kind2 2 (addr.extractLsb' 8 16) (addr.extractLsb' 0 8)).2 rfl
    rwa [append_addr] at h⟩

theorem reservedKind3 (payload : BitVec 24) : Statement (.reservedKind3 payload) := fun _ =>
  ⟨opcodeRows[9], by decide, rfl, by
    have h := (hits_kind3 3 (payload.extractLsb' 8 16) (payload.extractLsb' 0 8)).2 rfl
    rwa [append_addr] at h⟩

theorem applyMask (p : Pattern) (addr : FlashAddr) : Statement (.applyMask p addr) := fun _ => rfl

theorem maskForBank (code : BankCode) : Statement (.maskForBank code) := fun _ => rfl

end Sys2Proof.Laws.EncodesItsRow
end

