-- ==== Sys2Proof/Laws/Words.lean ====
section
/-!
SUPPORT. The words of R70 as 95_test_vectors.md writes them (`IN r` = r << 8 | data, `OUT r, v` = 0x1000000 | r << 8 | v,
`XLAT a` = 0x2000000 | a), and what the fault record holds of them (R180).
-/

namespace Sys2Proof.Machine

/-- The bits of a port word, field by field. -/
theorem getLsbD_portWord (k : BitVec 2) (i : RegIndex) (d : Byte) (n : Nat) :
    (k ++ i ++ d : TransWord).getLsbD n =
      if n < 8 then d.getLsbD n else if n - 8 < 16 then i.getLsbD (n - 8) else k.getLsbD (n - 8 - 16) := by
  rw [BitVec.getLsbD_append]
  split
  · rfl
  · rw [BitVec.getLsbD_append]

/-- The bits of a word with an address. -/
theorem getLsbD_addressWord (k : BitVec 2) (a : FlashAddr) (n : Nat) :
    (k ++ a : TransWord).getLsbD n = if n < 24 then a.getLsbD n else k.getLsbD (n - 24) := by
  rw [BitVec.getLsbD_append]

theorem word_write (idx : RegIndex) (v : Byte) :
    0x1000000#26 ||| (idx.setWidth 26 <<< 8) ||| v.setWidth 26 = 1#2 ++ idx ++ v := by
  apply BitVec.eq_of_getLsbD_eq
  intro i hi
  rw [getLsbD_portWord]
  interval_cases i <;> simp

theorem word_write0 (v : Byte) : 0x1000000#26 ||| v.setWidth 26 = 1#2 ++ 0#16 ++ v := by
  rw [← word_write]
  simp

theorem word_write1 (v : Byte) : 0x1000100#26 ||| v.setWidth 26 = 1#2 ++ 1#16 ++ v := by
  rw [← word_write]
  simp

theorem word_read (idx : RegIndex) (v : Byte) :
    (idx.setWidth 26 <<< 8) ||| v.setWidth 26 = 0#2 ++ idx ++ v := by
  apply BitVec.eq_of_getLsbD_eq
  intro i hi
  rw [getLsbD_portWord]
  interval_cases i <;> simp

theorem word_read0 (v : Byte) : v.setWidth 26 = 0#2 ++ 0#16 ++ v := by
  rw [← word_read]
  simp

theorem word_read1 (v : Byte) : 0x0000100#26 ||| v.setWidth 26 = 0#2 ++ 1#16 ++ v := by
  rw [← word_read]
  simp

theorem word_translate (a : FlashAddr) : 0x2000000#26 ||| a.setWidth 26 = 2#2 ++ a := by
  apply BitVec.eq_of_getLsbD_eq
  intro i hi
  rw [getLsbD_addressWord]
  interval_cases i <;> simp

theorem wordInfo_write (idx : RegIndex) (v : Byte) :
    wordInfo (portWriteWord idx v) = 0x1000000#30 ||| (idx.setWidth 30 <<< 8) ||| v.setWidth 30 := by
  apply BitVec.eq_of_getLsbD_eq
  intro i hi
  rw [wordInfo, portWriteWord, BitVec.getLsbD_setWidth, getLsbD_portWord]
  interval_cases i <;> simp

theorem wordInfo_read (idx : RegIndex) (v : Byte) :
    wordInfo (portReadWord idx v) = (idx.setWidth 30 <<< 8) ||| v.setWidth 30 := by
  apply BitVec.eq_of_getLsbD_eq
  intro i hi
  rw [wordInfo, portReadWord, BitVec.getLsbD_setWidth, getLsbD_portWord]
  interval_cases i <;> simp

theorem wordInfo_translate (a : FlashAddr) :
    wordInfo (translateWord a) = 0x2000000#30 ||| a.setWidth 30 := by
  apply BitVec.eq_of_getLsbD_eq
  intro i hi
  rw [wordInfo, translateWord, BitVec.getLsbD_setWidth, getLsbD_addressWord]
  interval_cases i <;> simp

theorem maskInputWord_info (p : Pattern) (a : FlashAddr) :
    maskInputWord p a = (p.setWidth 30 <<< 24) ||| a.setWidth 30 := by
  apply BitVec.eq_of_getLsbD_eq
  intro i hi
  rw [maskInputWord, BitVec.getLsbD_append]
  interval_cases i <;> simp

end Sys2Proof.Machine
end

