-- ==== Sys2Proof/Tests/Slice0.lean ====
section
/-!
SUPPORT. Tests. Every expected result is taken from spec/95_test_vectors.md (S1 to S10, V1 to V6) or from the rule named
beside it. The witnesses at the end show, for each obligation that has hypotheses, a state and operands that meet them, at
the boundary values of its clauses.
-/

namespace Sys2Proof.Tests

open Sys2Proof.Machine

/-- The next state of an outcome. -/
def nextOf : Host.Outcome State Fault Refusal → Option State
  | .next s => some s
  | .fault _ => none
  | .refused _ => none

/-- The attach state under given parameters and bank code, with given inputs to come. -/
def device (p : Config.Params) (bank : BankCode) (stream : List Input) : State :=
  { State.attach p with
    regs := { (State.attach p).regs with bankControl := bank }
    stream := stream }

def lazyHalt : Config.Params := Config.Params.default

def lazyContinue : Config.Params := { Config.Params.default with onFault := .continuing }

def eagerHalt : Config.Params := { Config.Params.default with bankValidation := .eager }

/-- The vectors' setting `DOUT_SOURCE = ZERO`. -/
def zeroLines : Config.Params := { Config.Params.default with doutSource := .zero }

/-- A device that has faulted (V6, `OUT 0, 0x10`). -/
def faultedDevice (p : Config.Params) : State :=
  { State.attach p with
    fault := { faulted := 1, code := 1, info := 0x1000010 }
    faultLog := [{ cause := .reg0ReservedBits, info := 0x1000010 }] }

/-! ### WellFormed: an ill-formed term for each check -/

/-- R120, R121: 0x07 has no reserved bit, 0x08 has one. -/
theorem test_wellFormed_wr0Rsv : wellFormed (.wr0Rsv 0x07) = false ∧ wellFormed (.wr0Rsv 0x08) = true := by decide

/-- R125: 2 is the smallest unknown index. -/
theorem test_wellFormed_wrUnknown :
    wellFormed (.wrUnknown 0 0) = false ∧ wellFormed (.wrUnknown 1 0) = false ∧ wellFormed (.wrUnknown 2 0) = true := by
  decide

/-- R144: 2 is the smallest unknown index. -/
theorem test_wellFormed_rdUnknown :
    wellFormed (.rdUnknown 0 0) = false ∧ wellFormed (.rdUnknown 1 0) = false ∧ wellFormed (.rdUnknown 2 0) = true := by
  decide

/-! ### Decoding: one word per constructor, its bits written out: kind, index, data (R70) -/

/-- R120: {01, 0000000000000000, 00000, 010}. -/
theorem test_decode_wr0 : decodeTableWord 26 0b01000000000000000000000010 = some (.wr0 0b010) := by decide

/-- R121, V3: {01, 0000000000000000, 00001000}. -/
theorem test_decode_wr0Rsv : decodeTableWord 26 0b01000000000000000000001000 = some (.wr0Rsv 0x08) := by decide

/-- R122: {01, 0000000000000001, 0, 1, 1, 0, 0101}. -/
theorem test_decode_wr1 : decodeTableWord 26 0b01000000000000000101100101 = some (.wr1 1 1 0 5) := by decide

/-- R124: {01, 0000000000000001, 1, 0000011}. -/
theorem test_decode_wr1Rsv : decodeTableWord 26 0b01000000000000000110000011 = some (.wr1Rsv 3) := by decide

/-- R125: {01, 0000000000000010, 11111111}; the index is unknown whatever the byte. -/
theorem test_decode_wrUnknown : decodeTableWord 26 0b01000000000000001011111111 = some (.wrUnknown 2 0xFF) := by decide

/-- R140, V4: {00, 0000000000000000, 11111111}. -/
theorem test_decode_rd0 : decodeTableWord 26 0b00000000000000000011111111 = some (.rd0 0xFF) := by decide

/-- R141: {00, 0000000000000001, 00000000}. -/
theorem test_decode_rd1 : decodeTableWord 26 0b00000000000000000100000000 = some (.rd1 0) := by decide

/-- R144: {00, 0000000000000101, 00000000}. -/
theorem test_decode_rdUnknown : decodeTableWord 26 0b00000000000000010100000000 = some (.rdUnknown 5 0) := by decide

/-- R160: {10, 000100100011010001010110}. -/
theorem test_decode_xlat : decodeTableWord 26 0b10000100100011010001010110 = some (.xlat 0x123456) := by decide

/-- R72: {11, all ones}. -/
theorem test_decode_reservedKind3 : decodeTableWord 26 0b11111111111111111111111111 = some (.reservedKind3 0xFFFFFF) := by
  decide

/-- R100: {111110, 000100100011010001010110}. -/
theorem test_decode_applyMask :
    decodeTableWord 30 0b111110000100100011010001010110 = some (.applyMask 0b111110 0x123456) := by decide

/-- R104: {1010}. -/
theorem test_decode_maskForBank : decodeTableWord 4 0b1010 = some (.maskForBank 10) := by decide

/-- R82: a number with bits above the format is no input; widths in whole bytes are taken as log 10 says. -/
theorem test_decode_widths :
    decodeTableWord 26 0x4000000 = none ∧ decodeTableWord 4 16 = none ∧ decodeTableWord 16 0 = none ∧
    decodeTableWord 32 0x2E5A5A5 = some (.xlat 0xE5A5A5) ∧
    decodeTableWord 32 0x10123456 = some (.applyMask 0x10 0x123456) ∧
    decodeTableWord 8 0x0B = some (.maskForBank 11) := by decide

/-- R83: the assembler notation, and a character outside '0', '1', 'X' has the illegal code (R74). -/
theorem test_asm :
    asmOut 1 0x65 = .transaction 0x1000165 ∧ asmIn 5 = .transaction 0x0000500 ∧
    asmXlat 0x123456 = .transaction 0x2123456 ∧ asmApplyMask 0x123456 '1' '1' '0' = .maskInput 0x3E123456 ∧
    asmApplyMask 0 'X' '1' 'X' = .maskInput 0x0C000000 ∧ asmApplyMask 0 'x' '0' 'X' = .maskInput 0x18000000 := by decide

/-! ### Operations -/

/-- V1, one row per symbol behaviour, the illegal ones last. -/
theorem test_applyMask :
    applyMask 0x3E 0x123456 = some 0x1A3456 ∧ applyMask 0x2A 0xFFFFFF = some 0xE3FFFF ∧
    applyMask 0x0C 0x000000 = some 0x080000 ∧ applyMask 0x00 0xFFFFFF = some 0xFFFFFF ∧
    applyMask 0x10 0x123456 = none ∧ applyMask 0x15 0 = none := by decide

/-- V1: the fault of an illegal symbol 0, and its info. -/
theorem test_applyMask_fault :
    (nextOf (exec (.applyMask 0x10 0x123456) State.reset)).map State.fault =
      some { faulted := 1, code := 7, info := 0x10123456 } := by decide

/-- V2. -/
theorem test_bankTable :
    maskForBank 0 = some 0x00 ∧ maskForBank 1 = some 0x3E ∧ maskForBank 2 = some 0x38 ∧ maskForBank 3 = some 0x2A ∧
    maskForBank 4 = some 0x2B ∧ maskForBank 5 = some 0x2E ∧ maskForBank 6 = some 0x2F ∧ maskForBank 7 = some 0x28 ∧
    maskForBank 8 = some 0x2C ∧ maskForBank 9 = some 0x20 ∧ maskForBank 10 = some 0x3F ∧ maskForBank 11 = none ∧
    maskForBank 15 = none := by decide

/-- V2: the fault of code 11. -/
theorem test_maskForBank_fault :
    (nextOf (exec (.maskForBank 11) State.reset)).map State.fault = some { faulted := 1, code := 5, info := 11 } := by
  decide

/-- V3, `OUT 0, 0x07`. -/
theorem test_wr0 :
    (nextOf (step (State.reset.withFetchWord 26 0x1000007))).map (fun s => s.regs.led) = some 0b111 := by decide

/-- V3, `OUT 0, 0x08`: fault 1, `led` unchanged. -/
theorem test_wr0Rsv :
    (nextOf (step (State.reset.withFetchWord 26 0x1000008))).map (fun s => (s.regs.led, s.fault)) =
      some (0b001, { faulted := 1, code := 1, info := 0x1000008 }) := by decide

/-- V3, `OUT 1, 0x65`. -/
theorem test_wr1 :
    (nextOf (step (State.reset.withFetchWord 26 0x1000165))).map State.regs =
      some { led := 1, clock := 1, chipSelect := 1, dataIn := 0, bankControl := 5, recoveryActive := 1 } := by decide

/-- V3, `OUT 1, 0x0B` under EAGER: fault 6, nothing written. -/
theorem test_wr1_eager :
    (nextOf (step ((State.attach eagerHalt).withFetchWord 26 0x100010B))).map (fun s => (s.regs.bankControl, s.fault)) =
      some (1, { faulted := 1, code := 6, info := 0x100010B }) := by decide

/-- V3, `OUT 1, 0x8B` under EAGER: fault 2, the reserved bit before the bank range. -/
theorem test_wr1Rsv :
    (nextOf (step ((State.attach eagerHalt).withFetchWord 26 0x100018B))).map (fun s => (s.regs, s.fault)) =
      some ((State.attach eagerHalt).regs, { faulted := 1, code := 2, info := 0x100018B }) := by decide

/-- V3, `OUT 0xFFFF, 0x01`: fault 3. -/
theorem test_wrUnknown :
    (nextOf (step (State.reset.withFetchWord 26 0x1FFFF01))).map (fun s => (s.regs, s.fault)) =
      some (State.reset.regs, { faulted := 1, code := 3, info := 0x1FFFF01 }) := by decide

/-- V4: word 0x00000FF reads 0x55. -/
theorem test_rd0 :
    (nextOf (step (State.reset.withFetchWord 26 0x00000FF))).map State.response = some (some (.byte 0x55)) := by decide

/-- V4, `IN 1` after `OUT 1, 0x7A`, both data-out lines 0: 0x8A. -/
theorem test_rd1 :
    (nextOf (exec (.rd1 0) (device zeroLines 10 []))).map State.response = some (some (.byte 0x8A)) := by decide

/-- V4: the draws d1 = 1, d4 = 0 and d1 = 1, d4 = 1 give 0xA1 and 0xB1; a recovery draw of 0 gives 0x01. S1: 0x85. -/
theorem test_statusByte :
    statusByte 1 1 0 1 = 0xA1 ∧ statusByte 1 1 1 1 = 0xB1 ∧ statusByte 0 0 0 1 = 0x01 ∧ statusByte 1 0 0 5 = 0x85 := by
  decide

/-- V4, V6, `IN 2` under HALT: fault 4, no response. -/
theorem test_rdUnknown :
    (nextOf (step (State.reset.withFetchWord 26 0x0000200))).map (fun s => (s.response, s.fault)) =
      some (none, { faulted := 1, code := 4, info := 0x0000200 }) := by decide

/-- V5: banks 1, 8 and 10 at 0xE5A5A5, 0xFFFFFF and 0x123456. -/
theorem test_xlat :
    (nextOf (exec (.xlat 0xE5A5A5) (device lazyHalt 1 []))).map State.response =
      some (some (.translation 1 0xF9A5A5)) ∧
    (nextOf (exec (.xlat 0xFFFFFF) (device lazyHalt 8 []))).map State.response =
      some (some (.translation 1 0xEFFFFF)) ∧
    (nextOf (exec (.xlat 0x123456) (device lazyHalt 10 []))).map State.response =
      some (some (.translation 1 0x1E3456)) := by decide

/-- P4 (a): `XLAT 0x000000` with bank 11 is fault 5, its info the word, and the next transaction has no step. -/
theorem test_xlat_undefinedBank :
    (nextOf (step (device lazyHalt 11 [asmXlat 0]))).map State.fault =
      some { faulted := 1, code := 5, info := 0x2000000 } := by decide

/-- R72. -/
theorem test_reservedKind3 : nextOf (step (State.reset.withFetchWord 26 0x3000000)) = none := by decide

/-- V6, HALT: after `OUT 0, 0x10`, `OUT 0, 0x02` has no step. -/
theorem test_halt : nextOf (step ((faultedDevice lazyHalt).withFetchWord 26 0x1000002)) = none := by decide

/-- V6, CONTINUE: after `OUT 0, 0x10`, `OUT 0, 0x02` writes `led`, and the record keeps the first fault. -/
theorem test_continue :
    (nextOf (step ((faultedDevice lazyContinue).withFetchWord 26 0x1000002))).map (fun s => (s.regs.led, s.fault)) =
      some (0b010, { faulted := 1, code := 1, info := 0x1000010 }) := by decide

/-- P5, line 4: a later fault under CONTINUE enters the log only. -/
theorem test_continue_log :
    (nextOf (step ((faultedDevice lazyContinue).withFetchWord 26 0x0000700))).map (fun s => (s.fault.code, s.faultLog)) =
      some (1,
        [{ cause := .reg0ReservedBits, info := 0x1000010 }, { cause := .unknownRegisterRead, info := 0x0000700 }]) := by
  decide

/-! ### Witnesses: each hypothesis can be met, at the boundaries of its range -/

theorem witness_decodeEncodeRoundTrip :
    wellFormed (.wr0Rsv 0x08) = true ∧ wellFormed (.wrUnknown 2 0) = true ∧ wellFormed (.rdUnknown 0xFFFF 0xFF) = true ∧
    wellFormed (.wr1 1 1 1 15) = true := by decide

theorem witness_equalPriorityRows :
    hitsRow 0x1000000 0x1000000 0x3FFFFF8 = true ∧ (opcodeRows.map OpcodeRow.priority).count 1 = 7 := by decide

theorem witness_stepRunsDecodedInput :
    (device lazyHalt 1 [asmIn 0]).isHalted = false ∧ (device lazyHalt 1 [asmIn 0]).stream = asmIn 0 :: [] := by decide

theorem witness_haltedDevice :
    (faultedDevice lazyHalt).fault.faulted = 1 ∧ (faultedDevice lazyHalt).params.onFault = .halting := by decide

theorem witness_idleHost : State.reset.isHalted = false ∧ State.reset.stream = [] := by decide

/-- The largest accepted and the smallest rejected byte of register 0. -/
theorem witness_register0Write :
    (device lazyHalt 1 [.transaction 0x1000007]).isHalted = false ∧
    (device lazyHalt 1 [.transaction 0x1000007]).stream = [.transaction (0x1000000#26 ||| (0x07#8).setWidth 26)] ∧
    (device lazyHalt 1 [.transaction 0x1000008]).stream = [.transaction (0x1000000#26 ||| (0x08#8).setWidth 26)] := by
  decide

/-- Bank codes 10 and 11 under EAGER, and the largest byte, 0x7F, under LAZY. -/
theorem witness_register1Write :
    (device eagerHalt 1 [.transaction 0x100010A]).isHalted = false ∧
    (device eagerHalt 1 [.transaction 0x100010A]).stream = [.transaction (0x1000100#26 ||| (0x0A#8).setWidth 26)] ∧
    (device eagerHalt 1 [.transaction 0x100010B]).stream = [.transaction (0x1000100#26 ||| (0x0B#8).setWidth 26)] ∧
    eagerHalt.bankValidation = .eager ∧ 10 < (0x0B#8).toNat % 16 ∧ ¬ 10 < (0x0A#8).toNat % 16 ∧ (0x7F#8).toNat < 128 ∧
    (device lazyHalt 1 [.transaction 0x100017F]).stream = [.transaction (0x1000100#26 ||| (0x7F#8).setWidth 26)] := by
  decide

theorem witness_register1ReservedBit :
    128 ≤ (0x80#8).toNat ∧ (device lazyHalt 1 [.transaction 0x1000180]).isHalted = false ∧
    (device lazyHalt 1 [.transaction 0x1000180]).stream = [.transaction (0x1000100#26 ||| (0x80#8).setWidth 26)] := by
  decide

/-- V3: index 2 with a byte that has reserved bits, index 1 with bit 7 and bank 11, index 0 with bit 3. -/
theorem witness_portWriteFaultPriority :
    (device eagerHalt 1 [.transaction 0x10002FF]).isHalted = false ∧
    (device eagerHalt 1 [.transaction 0x10002FF]).stream =
      [.transaction (0x1000000#26 ||| ((2#16).setWidth 26 <<< 8) ||| (0xFF#8).setWidth 26)] ∧
    (device eagerHalt 1 [.transaction 0x100018B]).stream =
      [.transaction (0x1000000#26 ||| ((1#16).setWidth 26 <<< 8) ||| (0x8B#8).setWidth 26)] ∧
    (device eagerHalt 1 [.transaction 0x1000008]).stream =
      [.transaction (0x1000000#26 ||| ((0#16).setWidth 26 <<< 8) ||| (0x08#8).setWidth 26)] := by decide

theorem witness_register0Read :
    (device lazyHalt 1 [.transaction 0x00000FF]).isHalted = false ∧
    (device lazyHalt 1 [.transaction 0x00000FF]).stream = [.transaction ((0xFF#8).setWidth 26)] := by decide

/-- Each source of each bit. -/
theorem witness_register1Read :
    (device lazyHalt 11 [.transaction 0x0000100]).isHalted = false ∧
    (device lazyHalt 11 [.transaction 0x0000100]).stream = [.transaction (0x0000100#26 ||| (0x00#8).setWidth 26)] ∧
    lazyHalt.recoverySource = .held ∧ lazyHalt.doutSource = .line ∧ zeroLines.doutSource = .zero ∧
    { lazyHalt with recoverySource := Config.RecoverySource.line }.recoverySource = .line := by decide

theorem witness_unknownRegister :
    2 ≤ (2#16).toNat ∧ (device lazyContinue 1 [.transaction 0x0000200]).isHalted = false ∧
    (device lazyContinue 1 [.transaction 0x0000200]).stream =
      [.transaction (((2#16).setWidth 26 <<< 8) ||| (0#8).setWidth 26)] ∧
    (device lazyHalt 1 [.transaction 0x1FFFF01]).stream =
      [.transaction (0x1000000#26 ||| ((0xFFFF#16).setWidth 26 <<< 8) ||| (1#8).setWidth 26)] ∧
    lazyContinue.onFault = .continuing ∧ lazyHalt.onFault = .halting := by decide

/-- The largest defined and the smallest undefined bank code. -/
theorem witness_translation :
    (device lazyHalt 10 [asmXlat 0xFFFFFF]).isHalted = false ∧ (device lazyHalt 10 []).regs.bankControl.toNat ≤ 10 ∧
    10 < (device lazyHalt 11 []).regs.bankControl.toNat ∧
    (device lazyHalt 11 [asmXlat 0]).isHalted = false ∧
    (device lazyHalt 10 [asmXlat 0xFFFFFF]).stream = [.transaction (0x2000000#26 ||| (0xFFFFFF#24).setWidth 26)] := by
  decide

/-- The invariant holds of an undefined bank code under LAZY. -/
theorem witness_translation_undefined : (device lazyHalt 11 []).Inv where
  record := by decide
  bank := by decide
  recovery := by decide
  oneFault := by decide

theorem witness_bankTableLegal : maskForBank 10 = some 0x3F ∧ maskForBank 0 = some 0x00 := by decide

theorem witness_bankWindow :
    bankWindow 0 = some (0x000000, 0x1FFFFF) ∧ bankWindow 10 = some (0x1C0000, 0x1FFFFF) ∧
    (0xFFFFFF#24).toNat / 2 ^ 21 < 8 ∧ (0x1FFFFF#24).toNat < 2 ^ 21 := by decide

/-- LAZY with code 15, EAGER with codes 10 and 11. -/
theorem witness_registerWrites :
    (State.attach lazyHalt).params.bankValidation = .lazy ∧ (State.attach eagerHalt).params.bankValidation = .eager ∧
    (10#4).toNat ≤ 10 ∧ 10 < (11#4).toNat := by decide

theorem witness_applyMask :
    legalPattern 0x3F = true ∧ (0x10#6).extractLsb' (4 - 2 * 0) 2 = 0b01 ∧ (0x01#6).extractLsb' (4 - 2 * 2) 2 = 0b01 := by
  decide

/-- Operations that answer a next state: a store to each register, a fault, a read, a translation. -/
theorem witness_exec_next :
    (nextOf (exec (.wr0 7) State.reset)).isSome = true ∧ (nextOf (exec (.wr1 1 1 1 10) State.reset)).isSome = true ∧
    (nextOf (exec (.wrUnknown 2 0) State.reset)).isSome = true ∧ (nextOf (exec (.rd0 0) State.reset)).isSome = true ∧
    (nextOf (exec (.rd1 0) State.reset)).isSome = true ∧ (nextOf (exec (.rdUnknown 2 0) State.reset)).isSome = true ∧
    (nextOf (exec (.xlat 0) State.reset)).isSome = true := by decide

/-- A fault grows the log, from a clear record and (under CONTINUE) from one that holds a fault. -/
theorem witness_fault_recorded :
    (nextOf (exec (.wrUnknown 2 0) State.reset)).map (fun t => t.faultLog.length) = some 1 ∧
    State.reset.fault.faulted = 0 ∧ (faultedDevice lazyContinue).fault.faulted = 1 ∧
    (nextOf (exec (.wrUnknown 2 0) (faultedDevice lazyContinue))).map (fun t => t.faultLog.length) = some 2 := by decide

theorem witness_continue :
    (faultedDevice lazyContinue).params.onFault = .continuing ∧
    (nextOf (step ((faultedDevice lazyContinue).withFetchWord 26 0x1000002))).isSome = true := by decide

/-- A bank code of 11 is kept by a write of register 0 and by a register-1 write of code 11. -/
theorem witness_undefinedBank :
    10 < (device lazyHalt 11 []).regs.bankControl.toNat ∧
    (nextOf (exec (.wr1 0 0 0 11) (device lazyHalt 11 []))).map (fun t => t.regs.bankControl) = some 11 ∧
    10 < (11#4).toNat := by decide

/-- `OUT 1, 0x7A` and then a translation: the largest defined code, all SPI lines 1. -/
theorem witness_newBank :
    (device lazyHalt 1 [asmOut 1 0x7A, asmXlat 0]).isHalted = false ∧ (0x7A#8).toNat < 128 ∧ (0x7A#8).toNat % 16 ≤ 10 ∧
    (device lazyHalt 1 [asmOut 1 0x7A, asmXlat 0]).stream =
      [.transaction (0x1000100#26 ||| (0x7A#8).setWidth 26), .transaction (0x2000000#26 ||| (0#24).setWidth 26)] := by
  decide

theorem witness_repeatedWrite :
    (nextOf (exec (.wr1 1 0 1 15) State.reset)).map State.faultLog = some State.reset.faultLog ∧
    (nextOf (exec (.wr0 0) State.reset)).map State.faultLog = some State.reset.faultLog := by decide

theorem witness_readsDiffer :
    (device zeroLines 9 []).params = (device zeroLines 9 [asmIn 1]).params ∧
    (device zeroLines 9 []).regs.bankControl = (device zeroLines 9 [asmIn 1]).regs.bankControl ∧
    (device zeroLines 9 []).regs.recoveryActive = (device zeroLines 9 [asmIn 1]).regs.recoveryActive ∧
    zeroLines.doutSource = .zero ∧ zeroLines.recoverySource = .held := by decide

/-- The invariant holds of a device that has faulted, not only of the attach state; and that device steps. -/
theorem witness_invariant : (faultedDevice lazyContinue).Inv where
  record := by decide
  bank := by decide
  recovery := by decide
  oneFault := by decide

theorem witness_invariant_step :
    (nextOf (step ((faultedDevice lazyContinue).withFetchWord 26 0x1000002))).isSome = true ∧
    (faultedDevice lazyContinue).params.recoverySource = .held := by decide

theorem witness_stepTakesOne :
    (device lazyHalt 1 [asmIn 0]).stream ≠ [] ∧ (nextOf (step (device lazyHalt 1 [asmIn 0]))).isSome = true ∧
    (nextOf (step State.reset)).isSome = true := by decide

theorem witness_attachedBlock :
    lazyHalt.recoverySource = .held ∧ lazyHalt.doutSource = .line ∧ zeroLines.recoverySource = .held ∧
    zeroLines.doutSource = .zero := by decide

/-- Two states with one bank code, 10 and 11, that differ in the parameters, the first two in the fault record as well. -/
theorem witness_sameBank :
    (device lazyHalt 10 []).regs.bankControl = { device lazyContinue 10 [] with fault.faulted := 1 }.regs.bankControl ∧
    (device lazyHalt 10 []).regs.bankControl.toNat ≤ 10 ∧
    (device lazyHalt 11 []).regs.bankControl = (device lazyContinue 11 []).regs.bankControl ∧
    10 < (device lazyHalt 11 []).regs.bankControl.toNat := by decide

/-- Each group of outputs changes somewhere. -/
theorem witness_outputs :
    (nextOf (exec (.wr0 6) State.reset)).map (fun t => (outputPorts t).led) = some 6 ∧
    (nextOf (exec (.wr1 1 0 0 1) State.reset)).map (fun t => (outputPorts t).spiClk) = some 1 ∧
    (nextOf (exec (.wr0Rsv 8) State.reset)).map (fun t => ((outputPorts t).fault, (outputPorts t).faultCode)) =
      some (1, 1) ∧
    outputPorts State.reset =
      { led := 1, spiClk := 0, spiCs := 0, spiDin := 0, fault := 0, faultCode := 0, faultInfo := 0 } := by
  decide

/-- A base port of 0xF500: the first and the last index, a port below the base, one past the last index, two bytes. -/
theorem witness_portAccess :
    portIndex 0xF500 0xF500 = some 0 ∧ portIndex 0xF500 (0xF500 + 0xFFFF) = some 0xFFFF ∧
    portIndex 0xF500 0xF4FF = none ∧ portIndex 0xF500 (0xF500 + 0x10000) = none ∧ (2 : Nat) ≠ 1 ∧
    ([0, 0] : List Byte).length ≠ 1 ∧ ([] : List Byte).length ≠ 1 := by decide

end Sys2Proof.Tests
end

section
/-!
PROOFS, family 10_state: which operations touch the RegisterFile (R27, R45), and what a translation answers in every state
(R104, R109, R160). The theorems that settle O41 and O42 stand at the end.
-/

namespace Sys2Proof.Machine

/-! ### The RegisterFile over all operations -/

/-- No operation writes the recovery flag (R27): neither register store names it, and the other shapes of a next state keep
the whole RegisterFile. -/
theorem exec_recoveryActive {i : Instr} {s t : State} (h : exec i s = .next t) :
    t.regs.recoveryActive = s.regs.recoveryActive := by
  rcases exec_cases h with ⟨r, rfl⟩ | ⟨led, -, rfl⟩ | ⟨c, k, d, b, -, -, rfl⟩ | ⟨f, x, r, rfl⟩ <;> simp

/-- Only WR0 and WR1 write the RegisterFile. -/
theorem exec_regs_of_not_store {i : Instr} {s t : State} (h : exec i s = .next t) (h0 : ∀ v, i ≠ .wr0 v)
    (h1 : ∀ c k d b, i ≠ .wr1 c k d b) : t.regs = s.regs := by
  rcases exec_cases h with ⟨r, rfl⟩ | ⟨led, rfl, -⟩ | ⟨c, k, d, b, rfl, -⟩ | ⟨f, x, r, rfl⟩
  · simp
  · exact absurd rfl (h0 led)
  · exact absurd rfl (h1 c k d b)
  · simp

/-! ### Translation -/

/-- The defined codes 0 to 10 have a pattern, and it is legal (R105, R109). -/
theorem maskForBank_of_le {code : BankCode} (h : code.toNat ≤ 10) :
    ∃ p, maskForBank code = some p ∧ legalPattern p = true := by
  have hsome : ∀ c : BankCode, c.toNat ≤ 10 → (maskForBank c).any legalPattern = true := by decide
  exact Option.any_eq_true _ _ |>.mp (hsome code h)

/-- The codes above 10 have none (R104). -/
theorem maskForBank_of_lt {code : BankCode} (h : 10 < code.toNat) : maskForBank code = none :=
  if_pos (show lastBank < code from BitVec.lt_def.mpr h)

/-- Under a defined bank code a translation answers a valid address that the code and the address alone determine, and does
nothing else (R45, R160). -/
theorem exec_xlat_of_le {code : BankCode} (h : code.toNat ≤ 10) (a : FlashAddr) :
    ∃ r, ∀ s : State, s.regs.bankControl = code →
      exec (.xlat a) s = .next (s.respond (some (.translation 1 r))) := by
  obtain ⟨p, hp, hlegal⟩ := maskForBank_of_le h
  obtain ⟨r, hr, -⟩ := applyMask_legal hlegal a
  exact ⟨r, fun s hs => by simp only [exec, execXlat, hs, hp, hr]⟩

/-- Under an undefined one it takes fault 5 and presents no valid address (R160, R185). -/
theorem exec_xlat_of_lt {s : State} (h : 10 < s.regs.bankControl.toNat) (a : FlashAddr) :
    exec (.xlat a) s =
      .next ((s.raise .undefinedBank (wordInfo (translateWord a))).respond (faultingTranslation s)) := by
  simp only [exec, execXlat, maskForBank_of_lt h]

/-- The response of a faulting translation is not that of a valid one (R185). -/
theorem faultingTranslation_ne_valid (s : State) (r : FlashAddr) :
    faultingTranslation s ≠ some (.translation 1 r) := by
  simp [faultingTranslation]

/-- A translation changes its response alone or, for an undefined bank code, the fault record and the log too (R45). -/
theorem exec_xlat_frame (a : FlashAddr) (s : State) : ∃ t, exec (.xlat a) s = .next t ∧
    t = { s with fault := t.fault, faultLog := t.faultLog, response := t.response } ∧
    (s.regs.bankControl.toNat ≤ 10 → t.fault = s.fault ∧ t.faultLog = s.faultLog) := by
  rcases Nat.lt_or_ge 10 s.regs.bankControl.toNat with hgt | hle
  · exact ⟨_, exec_xlat_of_lt hgt a, rfl, fun hle => absurd hgt (Nat.not_lt.mpr hle)⟩
  · obtain ⟨r, hr⟩ := exec_xlat_of_le hle a
    exact ⟨_, hr s rfl, rfl, fun _ => ⟨rfl, rfl⟩⟩

/-- Two states with one bank code answer the same valid address, or neither presents one (R45). -/
theorem exec_xlat_congr_bank (a : FlashAddr) {s u : State} (hb : u.regs.bankControl = s.regs.bankControl) :
    ∃ t v, exec (.xlat a) s = .next t ∧ exec (.xlat a) u = .next v ∧
      (s.regs.bankControl.toNat ≤ 10 →
        ∃ r, t.response = some (.translation 1 r) ∧ v.response = some (.translation 1 r)) ∧
      (10 < s.regs.bankControl.toNat →
        ∀ r, t.response ≠ some (.translation 1 r) ∧ v.response ≠ some (.translation 1 r)) := by
  rcases Nat.lt_or_ge 10 s.regs.bankControl.toNat with hgt | hle
  · exact ⟨_, _, exec_xlat_of_lt hgt a, exec_xlat_of_lt (hb ▸ hgt) a, fun hle => absurd hgt (Nat.not_lt.mpr hle),
      fun _ r => ⟨faultingTranslation_ne_valid s r, faultingTranslation_ne_valid u r⟩⟩
  · obtain ⟨r, hr⟩ := exec_xlat_of_le hle a
    exact ⟨_, _, hr s rfl, hr u hb, fun _ => ⟨r, rfl, rfl⟩, fun hgt => absurd hgt (Nat.not_lt.mpr hle)⟩

/-! ### The obligations -/

/-- Settles O41: reads and translations are no stores, and a translation's answer is fixed by the bank code and the
address. -/
theorem readsAndTranslationsLeaveRegisters : Obligations.ReadsAndTranslationsLeaveRegisters := by
  refine ⟨fun i s t hi h => ?_, exec_xlat_frame, fun a s u hb => exec_xlat_congr_bank a hb⟩
  rcases hi with ⟨v, rfl⟩ | ⟨v, rfl⟩ | ⟨x, v, rfl⟩ | ⟨a, rfl⟩ <;>
    exact exec_regs_of_not_store h nofun nofun

/-- Settles O42: from the four shapes of a next state, and fault 2 of WR1_RSV (R124). -/
theorem noOperationWritesRecoveryFlag : Obligations.NoOperationWritesRecoveryFlag :=
  ⟨fun _ _ _ h => exec_recoveryActive h,
    fun _ s => ⟨_, rfl, rfl, FaultRecord.record_faulted s.fault _ _⟩⟩

end Sys2Proof.Machine
end

section
/-!
PROOFS, family 40_masker_banktable: what a taken fault leaves, in the terms of the statements (R182), and what MASK_FOR_BANK
answers (R104, R105). The theorem that settles O39 stands at the end.
-/

namespace Sys2Proof.Machine

/-! ### A fault as the statements write it -/

/-- The record after a fault, split on whether it already held one (R182, R192). -/
theorem FaultRecord.record_eq_ite (r : FaultRecord) (f : FaultCause) (x : FaultInfo) :
    r.record f x = if r.faulted = 1 then r else { faulted := 1, code := faultCode f, info := x } := by
  rcases bit_cases r.faulted with h | h
  · simp [FaultRecord.record_of_clear h, h]
  · simp [FaultRecord.record_of_set h, h]

/-- A fault and its response, as the model's operations take them, are the faulted state of the statements. -/
theorem State.raise_respond (f : FaultCause) (x : FaultInfo) (r : Option Response) (s : State) :
    (s.raise f x).respond r = faultedState (faultCode f) f x r s := by
  simp only [State.raise, State.respond, faultedState, FaultRecord.record_eq_ite]

/-! ### MASK_FOR_BANK -/

/-- The patterns the source writes symbol by symbol have the printed encodings, and the undefined codes have neither
(R105). -/
theorem maskForBank_eq_bankEncoding (code : BankCode) : maskForBank code = bankEncoding code := by
  revert code
  decide

/-- A code with a pattern answers it, and the response is all that changes (R104). -/
theorem exec_maskForBank_of_some {code : BankCode} {p : Pattern} (h : maskForBank code = some p) (s : State) :
    exec (.maskForBank code) s = .next (s.respond (some (.pattern p))) := by
  simp only [exec, execMaskForBank, h]

/-- A code with none takes fault 5, records the code, and answers nothing (R104). -/
theorem exec_maskForBank_of_none {code : BankCode} (h : maskForBank code = none) (s : State) :
    exec (.maskForBank code) s = .next (faultedState 5 .undefinedBank (code.setWidth 30) none s) := by
  simp only [exec, execMaskForBank, h, State.raise_respond, faultCode]

/-! ### The obligation -/

/-- Settles O39: the defined codes are those with a pattern, and it is the printed one. -/
theorem maskForBankRule : Obligations.MaskForBankRule := by
  refine ⟨fun code s hle => ?_, fun code s hgt => exec_maskForBank_of_none (maskForBank_of_lt hgt) s⟩
  obtain ⟨p, hp, -⟩ := maskForBank_of_le hle
  exact ⟨p, maskForBank_eq_bankEncoding code ▸ hp, exec_maskForBank_of_some hp s⟩

end Sys2Proof.Machine
end

section
/-!
PROOFS, family 41_register_write: which operation a port write to register 0 or 1 spells, for every byte (R79, R120 to R124),
what the two reserved-bit operations leave, and which fields each write may change (R126). The theorems that settle O15, O17
and O43 stand at the end.
-/

namespace Sys2Proof.Machine

/-! ### The byte's reserved bits and the decoder -/

/-- Bits 7 to 3 are clear exactly in the bytes below 8 (R120). -/
theorem and_reg0Reserved_eq_zero_iff (v : Byte) : v &&& 0xF8#8 = 0#8 ↔ v.toNat < 8 := by
  revert v
  decide

/-- Bit 7 is clear exactly in the bytes below 128 (R122). -/
theorem and_reg1Reserved_eq_zero_iff (v : Byte) : v &&& 0x80#8 = 0#8 ↔ v.toNat < 128 := by
  revert v
  decide

/-- A byte with bit 7 set is the one that its other seven bits spell (R124). -/
theorem reg1RsvByte_extract {v : Byte} (h : 128 ≤ v.toNat) : reg1RsvByte (v.extractLsb' 0 7) = v := by
  revert v
  decide

/-- `OUT 0, v` is WR0 or, with a reserved bit set, WR0_RSV (R120, R121). -/
theorem decode_write0 (v : Byte) :
    decode (.transaction (0x1000000#26 ||| v.setWidth 26)) =
      if v.toNat < 8 then .wr0 (v.setWidth 3) else .wr0Rsv v := by
  rw [word_write0, decode, decodeTransaction_fields, BitVec.setWidth_eq_extractLsb' (by decide)]
  simp [and_reg0Reserved_eq_zero_iff]

/-- `OUT 1, v` is WR1 or, with bit 7 set, WR1_RSV (R122, R124). -/
theorem decode_write1 (v : Byte) :
    decode (.transaction (0x1000100#26 ||| v.setWidth 26)) =
      if v.toNat < 128 then
        .wr1 (v.extractLsb' 6 1) (v.extractLsb' 5 1) (v.extractLsb' 4 1) (v.extractLsb' 0 4)
      else .wr1Rsv (v.extractLsb' 0 7) := by
  rw [word_write1, decode, decodeTransaction_fields]
  simp [and_reg1Reserved_eq_zero_iff]

/-! ### The faults of the reserved bits -/

theorem wordInfo_write0 (v : Byte) : wordInfo (portWriteWord 0 v) = 0x1000000#30 ||| v.setWidth 30 := by
  simp [wordInfo_write]

theorem wordInfo_write1 (v : Byte) : wordInfo (portWriteWord 1 v) = 0x1000100#30 ||| v.setWidth 30 := by
  simp [wordInfo_write]

/-- WR0_RSV takes fault 1 with its word as info (R121). -/
theorem exec_wr0Rsv (v : Byte) (s : State) :
    exec (.wr0Rsv v) s =
      .next (faultedState 1 .reg0ReservedBits (0x1000000#30 ||| v.setWidth 30) none s) := by
  simp only [exec, execWr0Rsv, State.raise_respond, faultCode, wordInfo_write0]

/-- WR1_RSV takes fault 2 with its word as info (R124). -/
theorem exec_wr1Rsv (d : BitVec 7) (s : State) :
    exec (.wr1Rsv d) s =
      .next (faultedState 2 .reg1ReservedBit (0x1000100#30 ||| (reg1RsvByte d).setWidth 30) none s) := by
  simp only [exec, execWr1Rsv, State.raise_respond, faultCode, wordInfo_write1]

/-! ### Which fields a write may change (R126) -/

/-- WR1 completes under both settings of BANK_VALIDATION (R122, R123). -/
theorem exec_wr1_next (c k d : Bit) (b : BankCode) (s : State) : ∃ t, exec (.wr1 c k d b) s = .next t := by
  simp only [exec, execWr1]
  split <;> exact ⟨_, rfl⟩

/-- Only WR1 writes a field other than `led`. -/
theorem exec_regs_of_not_wr1 {i : Instr} {s t : State} (h : exec i s = .next t)
    (hi : ∀ c k d b, i ≠ .wr1 c k d b) : t.regs = { s.regs with led := t.regs.led } := by
  rcases exec_cases h with ⟨r, rfl⟩ | ⟨led, -, rfl⟩ | ⟨c, k, d, b, rfl, -⟩ | ⟨f, x, r, rfl⟩
  · simp
  · simp
  · exact absurd rfl (hi c k d b)
  · simp

/-- Only WR0 writes `led`. -/
theorem exec_led_of_not_wr0 {i : Instr} {s t : State} (h : exec i s = .next t)
    (hi : ∀ v, i ≠ .wr0 v) : t.regs.led = s.regs.led := by
  rcases exec_cases h with ⟨r, rfl⟩ | ⟨led, rfl, -⟩ | ⟨c, k, d, b, -, -, rfl⟩ | ⟨f, x, r, rfl⟩
  · simp
  · exact absurd rfl (hi led)
  · simp
  · simp

/-- An operation leaves the fault record and the log, or faults and leaves the RegisterFile (R126, R181). -/
theorem exec_keeps_record_or_regs {i : Instr} {s t : State} (h : exec i s = .next t) :
    t.fault = s.fault ∧ t.faultLog = s.faultLog ∨
      t.regs = s.regs ∧ t.faultLog.length = s.faultLog.length + 1 := by
  rcases exec_cases h with ⟨r, rfl⟩ | ⟨led, -, rfl⟩ | ⟨c, k, d, b, -, -, rfl⟩ | ⟨f, x, r, rfl⟩
  · exact .inl ⟨rfl, rfl⟩
  · exact .inl ⟨rfl, rfl⟩
  · exact .inl ⟨rfl, rfl⟩
  · exact .inr ⟨rfl, by simp⟩

/-- Every register-0 write completes. -/
theorem exec_write0_next (v : Byte) (s : State) :
    ∃ t, exec (decode (.transaction (0x1000000#26 ||| v.setWidth 26))) s = .next t := by
  rw [decode_write0]
  split
  · exact ⟨_, rfl⟩
  · exact ⟨_, exec_wr0Rsv v s⟩

/-- Every register-1 write completes. -/
theorem exec_write1_next (v : Byte) (s : State) :
    ∃ t, exec (decode (.transaction (0x1000100#26 ||| v.setWidth 26))) s = .next t := by
  rw [decode_write1]
  split
  · exact exec_wr1_next _ _ _ _ s
  · exact ⟨_, exec_wr1Rsv _ s⟩

theorem decode_write0_ne_wr1 (v : Byte) (c k d : Bit) (b : BankCode) :
    decode (.transaction (0x1000000#26 ||| v.setWidth 26)) ≠ .wr1 c k d b := by
  rw [decode_write0]
  split <;> nofun

theorem decode_write1_ne_wr0 (v : Byte) (led : BitVec 3) :
    decode (.transaction (0x1000100#26 ||| v.setWidth 26)) ≠ .wr0 led := by
  rw [decode_write1]
  split <;> nofun

/-! ### The obligations -/

/-- Settles O15: the byte spells WR0, which stores, or WR0_RSV, which faults. -/
theorem register0WriteRule : Obligations.Register0WriteRule := by
  intro s v rest hrun hstream
  rw [step_cons hrun hstream, decode_write0]
  split
  · rfl
  · exact exec_wr0Rsv v (s.present rest)

/-- Settles O17: the byte spells WR1_RSV, and its word is the info. -/
theorem register1ReservedBitRule : Obligations.Register1ReservedBitRule := by
  intro s v rest hrun hbit7 hstream
  rw [step_cons hrun hstream, decode_write1, if_neg (Nat.not_lt.mpr hbit7), exec_wr1Rsv, reg1RsvByte_extract hbit7]

/-- Settles O43: a register-0 write is not WR1, a register-1 write is not WR0, and no operation both stores and faults. -/
theorem registerWritesAreIndependent : Obligations.RegisterWritesAreIndependent := by
  intro s v
  obtain ⟨t, ht⟩ := exec_write0_next v s
  obtain ⟨u, hu⟩ := exec_write1_next v s
  exact ⟨⟨t, ht, exec_regs_of_not_wr1 ht (decode_write0_ne_wr1 v), exec_keeps_record_or_regs ht⟩,
    ⟨u, hu, exec_led_of_not_wr0 hu (decode_write1_ne_wr0 v), exec_recoveryActive hu, exec_keeps_record_or_regs hu⟩⟩

end Sys2Proof.Machine
end

section
/-!
PROOFS, family 42_register_read: which operation a port read of register 0 spells, for every data byte (R79), and what it
answers (R140). The theorem that settles O19 stands at the end.
-/

namespace Sys2Proof.Machine

/-- `IN 0` is RD0 whatever the data bits of its word (R79). -/
theorem decode_read0 (d : Byte) : decode (.transaction (d.setWidth 26)) = .rd0 d := by
  rw [word_read0, decode, decodeTransaction_fields]
  simp

/-- RD0 answers the signature byte, and the response is all that changes (R140). -/
theorem exec_rd0 (d : Byte) (s : State) : exec (.rd0 d) s = .next (s.respond (some (.byte 0x55))) :=
  rfl

/-- Settles O19: the word spells RD0, which changes the response alone. -/
theorem register0ReadRule : Obligations.Register0ReadRule := by
  intro s d rest hrun hstream
  rw [step_cons hrun hstream, decode_read0, exec_rd0, State.respond]

end Sys2Proof.Machine
end

section
/-!
PROOFS, family 43_translate: which operation a translate word spells (R79), what a translation answers through its bank's
pattern (R160), and which bits of the address the pattern changes (R161). The theorems that settle O22 and O23 stand at the
end.
-/

namespace Sys2Proof.Machine

/-! ### The translate word -/

/-- `XLAT a` is the translation of `a` (R79). -/
theorem decode_translate (a : FlashAddr) :
    decode (.transaction (0x2000000#26 ||| a.setWidth 26)) = .xlat a := by
  rw [word_translate, ← append_addr, decode, decodeTransaction_fields, append_addr,
    BitVec.extractLsb'_append_eq_right]
  simp

/-! ### What a translation answers -/

/-- Through a pattern that masks the address, a translation answers the masked address as valid, and the response is all
that changes (R160). -/
theorem exec_xlat_of_some {s : State} {p : Pattern} {a r : FlashAddr} (hp : maskForBank s.regs.bankControl = some p)
    (hr : applyMask p a = some r) : exec (.xlat a) s = .next (s.respond (some (.translation 1 r))) := by
  simp only [exec, execXlat, hp, hr]

/-- Under an undefined bank code it is fault 5 with the translate word as info (R160, R185). -/
theorem exec_xlat_undefinedBank {s : State} (h : 10 < s.regs.bankControl.toNat) (a : FlashAddr) :
    exec (.xlat a) s =
      .next (faultedState 5 .undefinedBank (0x2000000#30 ||| a.setWidth 30) (faultingTranslation s) s) := by
  rw [exec_xlat_of_lt h, State.raise_respond, wordInfo_translate, faultCode]

/-- Under the invariant only LAZY admits an undefined bank code (R25). -/
theorem State.Inv.lazy_of_undefinedBank {s : State} (hinv : s.Inv) (h : 10 < s.regs.bankControl.toNat) :
    s.params.bankValidation = .lazy := by
  cases hv : s.params.bankValidation with
  | lazy => rfl
  | eager => exact absurd (BitVec.le_def.mp (hinv.bank hv)) (Nat.not_le.mpr h)

/-! ### Which bits a pattern changes -/

/-- The columns M and V of R105 are the force mask and the force value of each bank's pattern (R75). -/
theorem bankForce_eq_maskForBank (code : BankCode) :
    bankForce code = (maskForBank code).map fun p => (forceMask p, forceValue p) := by
  revert code
  decide

/-- Symbol `2 - j` makes its bit what bit `j` of the force mask and the force value says (R75). -/
theorem governed_symbolAt (p : Pattern) (old : Bool) {j : Nat} (hj : j < 3) :
    governed (symbolAt p (2 - j)) old = if (forceMask p).getLsbD j then (forceValue p).getLsbD j else old := by
  revert p old j
  decide

/-- A legal pattern leaves the bits outside 20 to 18 alone, and changes bit `18 + j` only where it forces it, to the force
value (R75, R100). -/
theorem applyMask_forcedBits {p : Pattern} (hp : legalPattern p = true) (a : FlashAddr) :
    ∃ r, applyMask p a = some r ∧ (∀ b, ¬ (18 ≤ b ∧ b ≤ 20) → r.getLsbD b = a.getLsbD b) ∧
      ∀ j, j < 3 →
        r.getLsbD (18 + j) = if (forceMask p).getLsbD j then (forceValue p).getLsbD j else a.getLsbD (18 + j) := by
  obtain ⟨r, hr, hbit⟩ := applyMask_legal hp a
  refine ⟨r, hr, fun b hb => ?_, fun j hj => ?_⟩
  · rw [hbit, if_neg (by omega), if_neg (by omega), if_neg (by omega)]
  · rw [hbit, ← governed_symbolAt p _ hj]
    interval_cases j <;> simp

/-! ### The obligations -/

/-- Settles O22: the word spells XLAT; a defined code has a legal pattern, and an undefined one faults. -/
theorem translationRule : Obligations.TranslationRule := by
  intro s a rest hrun hstream
  rw [step_cons hrun hstream, decode_translate]
  refine ⟨fun hle => ?_, fun hgt => ⟨fun hinv => hinv.lazy_of_undefinedBank hgt, _,
    exec_xlat_undefinedBank (s := s.present rest) hgt a, faultingTranslation_ne_valid _⟩⟩
  obtain ⟨p, hp, hlegal⟩ := maskForBank_of_le hle
  obtain ⟨r, hr, -⟩ := applyMask_legal hlegal a
  exact ⟨p, r, maskForBank_eq_bankEncoding _ ▸ hp, hr, exec_xlat_of_some (s := s.present rest) hp hr⟩

/-- Settles O23: the bank's pattern is legal, its force bits are the columns M and V, and it changes no bit but those it
forces. -/
theorem translationChangesOnlyForcedBits : Obligations.TranslationChangesOnlyForcedBits := by
  intro s a hle
  obtain ⟨p, hp, hlegal⟩ := maskForBank_of_le hle
  obtain ⟨r, hr, houtside, hforced⟩ := applyMask_forcedBits hlegal a
  have hforce : bankForce s.regs.bankControl = some (forceMask p, forceValue p) := by
    rw [bankForce_eq_maskForBank, hp, Option.map_some]
  exact ⟨_, r, _, _, exec_xlat_of_some hp hr, rfl, hforce, houtside, hforced⟩

end Sys2Proof.Machine
end

section
/-!
PROOFS, family other, encoding (R70, R79, R84): every transaction word is one of the four formats, the decoder over each
format, and the opcode table as data. The theorems that settle O1 to O7 stand at the end.
-/

namespace Sys2Proof

/-! ### The four formats -/

/-- A word of kind 0b10 or 0b11 is its kind and its payload. -/
theorem word_split_payload (t : TransWord) : wordKind t ++ t.extractLsb' 0 24 = t := by
  rw [wordKind, BitVec.extractLsb'_append_extractLsb'_eq_extractLsb' (by rfl)]
  exact BitVec.extractLsb'_eq_self

/-- Every transaction word is of one of the four formats (R70, R72). -/
theorem word_cases (t : TransWord) :
    (∃ i d, t = portReadWord i d) ∨ (∃ i d, t = portWriteWord i d) ∨ (∃ a, t = translateWord a) ∨
      ∃ w, t = reservedWord w := by
  have hfields := word_split t
  have hpayload := word_split_payload t
  rcases kind_cases (wordKind t) with h | h | h | h <;> rw [h] at hfields hpayload
  · exact .inl ⟨_, _, hfields.symm⟩
  · exact .inr (.inl ⟨_, _, hfields.symm⟩)
  · exact .inr (.inr (.inl ⟨_, hpayload.symm⟩))
  · exact .inr (.inr (.inr ⟨_, hpayload.symm⟩))

/-! ### The decoder over each format -/

theorem decode_portWriteWord (i : RegIndex) (d : Byte) :
    decode (.transaction (portWriteWord i d)) =
      if i = 0 then if d &&& 0xF8#8 = 0 then .wr0 (d.extractLsb' 0 3) else .wr0Rsv d
      else if i = 1 then
        if d &&& 0x80#8 = 0 then
          .wr1 (d.extractLsb' 6 1) (d.extractLsb' 5 1) (d.extractLsb' 4 1) (d.extractLsb' 0 4)
        else .wr1Rsv (d.extractLsb' 0 7)
      else .wrUnknown i d := by
  rw [decode, portWriteWord, decodeTransaction_fields]
  rfl

theorem decode_portReadWord (i : RegIndex) (d : Byte) :
    decode (.transaction (portReadWord i d)) =
      if i = 0 then .rd0 d else if i = 1 then .rd1 d else .rdUnknown i d := by
  rw [decode, portReadWord, decodeTransaction_fields]
  rfl

theorem decode_translateWord (a : FlashAddr) : decode (.transaction (translateWord a)) = .xlat a := by
  rw [decode, translateWord, ← append_addr, decodeTransaction_fields, append_addr,
    BitVec.extractLsb'_append_eq_right]
  rfl

theorem decode_reservedWord (w : BitVec 24) : decode (.transaction (reservedWord w)) = .reservedKind3 w := by
  rw [decode, reservedWord, ← append_addr, decodeTransaction_fields, append_addr,
    BitVec.extractLsb'_append_eq_right]
  rfl

theorem decode_maskInputWord (p : Pattern) (a : FlashAddr) :
    decode (.maskInput (maskInputWord p a)) = .applyMask p a := by
  rw [decode, maskInputWord, BitVec.extractLsb'_append_eq_left, BitVec.extractLsb'_append_eq_right]

/-! ### The bytes of the register writes (R77, R78, R124) -/

theorem reg0Byte_reserved (led : BitVec 3) : reg0Byte led &&& 0xF8#8 = 0 := by
  revert led
  decide

theorem extract_reg0Byte (led : BitVec 3) : (reg0Byte led).extractLsb' 0 3 = led := by
  revert led
  decide

theorem reg0Byte_extract {d : Byte} (h : d &&& 0xF8#8 = 0) : reg0Byte (d.extractLsb' 0 3) = d := by
  revert d
  decide

theorem reg1Byte_reserved (c k d : Bit) (b : BankCode) : reg1Byte c k d b &&& 0x80#8 = 0 := by
  revert c k d b
  decide

theorem extract_reg1Byte (c k d : Bit) (b : BankCode) :
    (reg1Byte c k d b).extractLsb' 6 1 = c ∧ (reg1Byte c k d b).extractLsb' 5 1 = k ∧
      (reg1Byte c k d b).extractLsb' 4 1 = d ∧ (reg1Byte c k d b).extractLsb' 0 4 = b := by
  revert c k d b
  decide

theorem reg1Byte_extract {d : Byte} (h : d &&& 0x80#8 = 0) :
    reg1Byte (d.extractLsb' 6 1) (d.extractLsb' 5 1) (d.extractLsb' 4 1) (d.extractLsb' 0 4) = d := by
  revert d
  decide

theorem reg1RsvByte_reserved (d : BitVec 7) : ¬ reg1RsvByte d &&& 0x80#8 = 0 := by
  revert d
  decide

theorem extract_reg1RsvByte (d : BitVec 7) : (reg1RsvByte d).extractLsb' 0 7 = d := by
  revert d
  decide

theorem reg1RsvByte_extract_of_reserved {d : Byte} (h : ¬ d &&& 0x80#8 = 0) :
    reg1RsvByte (d.extractLsb' 0 7) = d := by
  revert d
  decide

/-- A reserved bit of a register-0 write, as the decoder tests it and as `wellFormed` does (R121). -/
theorem reg0Reserved_iff (d : Byte) : (d.extractLsb' 3 5 != 0) = true ↔ ¬ d &&& 0xF8#8 = 0 := by
  revert d
  decide

/-- The unknown indices are those other than 0 and 1 (R71). -/
theorem two_le_index_iff (i : RegIndex) : 2 ≤ i ↔ ¬ i = 0 ∧ ¬ i = 1 := by
  bv_omega

/-! ### The opcode table -/

/-- Two rows that one word fits agree where both masks look. -/
theorem hitsRow_agree {t f₁ m₁ f₂ m₂ : TransWord} (h₁ : hitsRow t f₁ m₁ = true) (h₂ : hitsRow t f₂ m₂ = true) :
    f₁ &&& m₂ = f₂ &&& m₁ := by
  simp only [hitsRow, beq_iff_eq] at h₁ h₂
  rw [← h₁, ← h₂, BitVec.and_assoc, BitVec.and_assoc, BitVec.and_comm m₁]

/-- Different rows of one priority disagree somewhere. -/
theorem opcodeRows_disagree : ∀ r₁ ∈ opcodeRows, ∀ r₂ ∈ opcodeRows, r₁.priority = r₂.priority →
    r₁.fixed &&& r₂.mask = r₂.fixed &&& r₁.mask → r₁ = r₂ := by
  decide

theorem one_le_priority : ∀ r ∈ opcodeRows, 1 ≤ r.priority := by
  decide

/-- The decoded operation's row fits the word, and no row before it in priority order does: the decoder tests the rows
in priority order (R79). -/
theorem decodeTransaction_row (t : TransWord) : ∃ row ∈ opcodeRows,
    row.mnemonic = (decodeTransaction t).mnemonic ∧ hitsRow t row.fixed row.mask = true ∧
      ∀ r ∈ opcodeRows, hitsRow t r.fixed r.mask = true → row.priority ≤ r.priority := by
  unfold decodeTransaction
  split_ifs with wr0 wr1 wr1Rsv rd0 rd1 xlat kind3 wr0Rsv kind1
  · exact ⟨opcodeRows[0], by decide, rfl, wr0, fun r hr _ => one_le_priority r hr⟩
  · exact ⟨opcodeRows[2], by decide, rfl, wr1, fun r hr _ => one_le_priority r hr⟩
  · exact ⟨opcodeRows[3], by decide, rfl, wr1Rsv, fun r hr _ => one_le_priority r hr⟩
  · exact ⟨opcodeRows[5], by decide, rfl, rd0, fun r hr _ => one_le_priority r hr⟩
  · exact ⟨opcodeRows[6], by decide, rfl, rd1, fun r hr _ => one_le_priority r hr⟩
  · exact ⟨opcodeRows[8], by decide, rfl, xlat, fun r hr _ => one_le_priority r hr⟩
  · exact ⟨opcodeRows[9], by decide, rfl, kind3, fun r hr _ => one_le_priority r hr⟩
  · exact ⟨opcodeRows[1], by decide, rfl, wr0Rsv, by simp [opcodeRows, *]⟩
  · exact ⟨opcodeRows[4], by decide, rfl, kind1, by simp [opcodeRows, *]⟩
  · have kind0 : hitsRow t 0x0000000#26 0x3000000#26 = true := by
      rw [← word_split t] at xlat kind3 kind1 ⊢
      rw [hits_kind1] at kind1
      rw [hits_kind2] at xlat
      rw [hits_kind3] at kind3
      rw [hits_kind0]
      simpa [kind1, xlat, kind3] using kind_cases (wordKind t)
    exact ⟨opcodeRows[7], by decide, rfl, kind0, by simp [opcodeRows, *]⟩

/-! ### The obligations -/

/-- Settles O1: the decoder over the format of each operation, whose byte and index select the operation's row. -/
theorem decodeEncodeRoundTrip : Obligations.DecodeEncodeRoundTrip := by
  intro i hi
  cases i with
  | wr0 led => simp [encode, decode_portWriteWord, reg0Byte_reserved, extract_reg0Byte]
  | wr0Rsv d =>
    have hd : ¬ d &&& 0xF8#8 = 0 := (reg0Reserved_iff d).mp hi
    simp only [encode, decode_portWriteWord, if_neg hd, if_true]
  | wr1 c k d b =>
    obtain ⟨hc, hk, hd, hb⟩ := extract_reg1Byte c k d b
    simp [encode, decode_portWriteWord, reg1Byte_reserved, hc, hk, hd, hb]
  | wr1Rsv d =>
    simp only [encode, decode_portWriteWord, if_neg (reg1RsvByte_reserved d), extract_reg1RsvByte]
    rfl
  | wrUnknown idx d =>
    obtain ⟨h0, h1⟩ := (two_le_index_iff idx).mp (of_decide_eq_true hi)
    rw [encode, decode_portWriteWord, if_neg h0, if_neg h1]
  | rd0 d => simp [encode, decode_portReadWord]
  | rd1 d => simp [encode, decode_portReadWord]
  | rdUnknown idx d =>
    obtain ⟨h0, h1⟩ := (two_le_index_iff idx).mp (of_decide_eq_true hi)
    rw [encode, decode_portReadWord, if_neg h0, if_neg h1]
  | xlat a => exact decode_translateWord a
  | reservedKind3 w => exact decode_reservedWord w
  | applyMask p a => exact decode_maskInputWord p a
  | maskForBank code => rfl

/-- Settles O2: a port word by its index and byte, any other word by its payload. -/
theorem encodeDecodeRoundTrip : Obligations.EncodeDecodeRoundTrip := by
  rintro (t | x | c)
  · rcases word_cases t with ⟨i, d, rfl⟩ | ⟨i, d, rfl⟩ | ⟨a, rfl⟩ | ⟨w, rfl⟩
    · rw [decode_portReadWord]
      split_ifs with h0 h1
      · rw [h0, encode]
      · rw [h1, encode]
      · rfl
    · rw [decode_portWriteWord]
      split_ifs with h0 hd h1 hd
      · rw [h0, encode, reg0Byte_extract hd]
      · rw [h0, encode]
      · rw [h1, encode, reg1Byte_extract hd]
      · rw [h1, encode, reg1RsvByte_extract_of_reserved hd]
      · rfl
    · rw [decode_translateWord, encode]
    · rw [decode_reservedWord, encode]
  · rw [decode, encode, maskInputWord, BitVec.extractLsb'_append_extractLsb'_eq_extractLsb' (by rfl)]
    exact congrArg Input.maskInput BitVec.extractLsb'_eq_self
  · rfl

/-- Settles O3: the rows that need a check of `wellFormed` stand where the decoder has made it. -/
theorem decodedIsWellFormed : Obligations.DecodedIsWellFormed := by
  rintro (t | x | c)
  · rcases word_cases t with ⟨i, d, rfl⟩ | ⟨i, d, rfl⟩ | ⟨a, rfl⟩ | ⟨w, rfl⟩
    · rw [decode_portReadWord]
      split_ifs with h0 h1
      · rfl
      · rfl
      · exact decide_eq_true ((two_le_index_iff i).mpr ⟨h0, h1⟩)
    · rw [decode_portWriteWord]
      split_ifs with h0 hd h1 hd
      · rfl
      · exact (reg0Reserved_iff d).mpr hd
      · rfl
      · rfl
      · exact decide_eq_true ((two_le_index_iff i).mpr ⟨h0, h1⟩)
    · rw [decode_translateWord, wellFormed]
    · rw [decode_reservedWord, wellFormed]
  · rfl
  · rfl

/-- Settles O5: two rows that one word fits agree where both masks look, and the table's rows of one priority do not. -/
theorem equalPriorityRowsNeverOverlap : Obligations.EqualPriorityRowsNeverOverlap :=
  fun r₁ hr₁ r₂ hr₂ hp _ h₁ h₂ => opcodeRows_disagree r₁ hr₁ r₂ hr₂ hp (hitsRow_agree h₁ h₂)

/-- Settles O4: the decoder tests the rows in priority order, and rows of equal priority never overlap. -/
theorem decoderTakesFirstRowInPriorityOrder : Obligations.DecoderTakesFirstRowInPriorityOrder := by
  intro t
  obtain ⟨row, hrow, hname, hhit, hfirst⟩ := decodeTransaction_row t
  refine ⟨row, hrow, hname, hhit, fun r hr h => ?_⟩
  rcases (hfirst r hr h).eq_or_lt with heq | hlt
  · exact .inl (equalPriorityRowsNeverOverlap r hr row hrow heq.symm t h hhit)
  · exact .inr hlt

/-- Settles O6: the decoder evaluated at the printed words. -/
theorem specWordsDecode : Obligations.SpecWordsDecode := by
  unfold Obligations.SpecWordsDecode
  decide

/-- Settles O7: each pseudo-operation is a port word whose byte spells the operation's operands (R84). -/
theorem pseudoOperationsDecode : Obligations.PseudoOperationsDecode := by
  refine ⟨?_, ?_, ?_, ?_⟩
  · decide
  · decide
  · decide
  · decide

end Sys2Proof
end

section
/-!
PROOFS, family other, the step and the invariant: how an operation and a step can end (R187, R72), what a step takes (R44),
and what every step keeps (R182, R25, R28). The theorems that settle O9 to O13, O52, O53 and O55 stand at the end.
-/

namespace Sys2Proof.Machine

/-! ### How an operation ends -/

/-- Every operation answers a next state, but for the reserved kind. -/
theorem exec_next_or_reserved (i : Instr) (s : State) :
    (∃ t, exec i s = .next t) ∨ ∃ w, i = .reservedKind3 w := by
  cases i with
  | wr0 led => exact .inl ⟨_, rfl⟩
  | wr0Rsv d => exact .inl ⟨_, rfl⟩
  | wr1 c k d b => exact .inl (exec_wr1_next c k d b s)
  | wr1Rsv d => exact .inl ⟨_, rfl⟩
  | wrUnknown idx d => exact .inl ⟨_, rfl⟩
  | rd0 d => exact .inl ⟨_, rfl⟩
  | rd1 d => exact .inl ⟨_, rfl⟩
  | rdUnknown idx d => exact .inl ⟨_, rfl⟩
  | xlat a =>
    obtain ⟨t, ht, -⟩ := exec_xlat_frame a s
    exact .inl ⟨t, ht⟩
  | reservedKind3 w => exact .inr ⟨w, rfl⟩
  | applyMask p a =>
    simp only [exec, execApplyMask]
    split <;> exact .inl ⟨_, rfl⟩
  | maskForBank code =>
    simp only [exec, execMaskForBank]
    split <;> exact .inl ⟨_, rfl⟩

/-- A word of kind 0b11 is refused in every state (R72, R80). -/
theorem exec_reservedKind3 (w : BitVec 24) (s : State) : exec (.reservedKind3 w) s = .refused .reservedKind :=
  rfl

/-- No operation answers the fault outcome: a fault is taken into the record (R181, log 5). -/
theorem exec_ne_fault (i : Instr) (s : State) (f : Fault) : exec i s ≠ .fault f := by
  rcases exec_next_or_reserved i s with ⟨t, ht⟩ | ⟨w, rfl⟩
  · rw [ht]
    nofun
  · nofun

/-- Only the reserved kind is refused. -/
theorem exec_eq_refused_iff (i : Instr) (s : State) (r : Refusal) :
    exec i s = .refused r ↔ r = .reservedKind ∧ ∃ w, i = .reservedKind3 w := by
  constructor
  · intro h
    rcases exec_next_or_reserved i s with ⟨t, ht⟩ | ⟨w, rfl⟩
    · rw [ht] at h
      cases h
    · rw [exec_reservedKind3] at h
      cases h
      exact ⟨rfl, w, rfl⟩
  · rintro ⟨rfl, w, rfl⟩
    rfl

/-- The inputs that spell the reserved kind are the words of kind 0b11 (R72). -/
theorem decode_eq_reservedKind3_iff (x : Input) :
    (∃ w, decode x = .reservedKind3 w) ↔ ∃ t : TransWord, x = .transaction t ∧ wordKind t = 3#2 := by
  constructor
  · rintro ⟨w, hw⟩
    have hx : encode (decode x) = x := encodeDecodeRoundTrip x
    rw [hw, encode] at hx
    exact ⟨_, hx.symm, BitVec.extractLsb'_append_eq_left⟩
  · rintro ⟨t, rfl, hkind⟩
    refine ⟨t.extractLsb' 0 24, ?_⟩
    rw [← decode_reservedWord, reservedWord, ← word_split_payload t, hkind, BitVec.extractLsb'_append_eq_right]

/-! ### How a step ends -/

theorem step_halted {s : State} (h : s.isHalted = true) : step s = .fault .halted := by
  simp only [step, fetch_halted h]

theorem step_idle {s : State} (h : s.isHalted = false) (he : s.stream = []) : step s = .next s := by
  simp only [step, fetch_idle h he]

/-- The old levels of the input lines do not reach the transaction: `present` replaces them (log 3). -/
theorem step_lines_irrelevant (s : State) (l : InputLines) (he : s.stream ≠ []) :
    step { s with lines := l } = step s := by
  cases hrun : s.isHalted with
  | true => rw [step_halted hrun, step_halted (s := { s with lines := l }) hrun]
  | false =>
    obtain ⟨x, rest, hx⟩ := List.exists_cons_of_ne_nil he
    rw [step_cons hrun hx, step_cons (s := { s with lines := l }) hrun hx]
    rfl

/-! ### What every operation keeps -/

/-- The parameters, the stream, the input lines and the count of transactions are no operation's to write (R44, log 3,
log 4). -/
theorem exec_keeps_outside {i : Instr} {s t : State} (h : exec i s = .next t) :
    t.params = s.params ∧ t.stream = s.stream ∧ t.lines = s.lines ∧ t.draws = s.draws := by
  rcases exec_cases h with ⟨r, rfl⟩ | ⟨led, -, rfl⟩ | ⟨c, k, d, b, -, -, rfl⟩ | ⟨f, x, r, rfl⟩ <;> simp

/-! ### The invariant -/

/-- A further fault leaves the record of the first one, and the first fault of a clear log enters it (R182). -/
theorem record_recordOf (l : List FaultEntry) (f : FaultCause) (x : FaultInfo) :
    (recordOf l).record f x = recordOf (l ++ [{ cause := f, info := x }]) := by
  cases l with
  | nil => exact FaultRecord.record_of_clear rfl f x
  | cons e l => exact FaultRecord.record_of_set rfl f x

/-- Under the invariant a clear record means an empty log. -/
theorem State.Inv.faultLog_eq_nil {s : State} (hinv : s.Inv) (h : s.fault.faulted = 0) : s.faultLog = [] := by
  rw [hinv.record] at h
  cases hl : s.faultLog with
  | nil => rfl
  | cons e l =>
    rw [hl] at h
    exact absurd h (show (1 : Bit) ≠ 0 by decide)

theorem State.Inv.respond {s : State} (hinv : s.Inv) (r : Option Response) : (s.respond r).Inv :=
  ⟨hinv.record, hinv.bank, hinv.recovery, hinv.oneFault⟩

theorem State.Inv.present {s : State} (hinv : s.Inv) (rest : List Input) : (s.present rest).Inv :=
  ⟨hinv.record, hinv.bank, hinv.recovery, hinv.oneFault⟩

theorem State.Inv.writeLed {s : State} (hinv : s.Inv) (led : BitVec 3) : (s.writeLed led).Inv :=
  ⟨hinv.record, hinv.bank, hinv.recovery, hinv.oneFault⟩

/-- A register-1 store that EAGER admits keeps the bank code defined (R25, R123). -/
theorem State.Inv.writeControl {s : State} (hinv : s.Inv) {c k d : Bit} {b : BankCode}
    (hb : ¬ (s.params.bankValidation = .eager ∧ lastBank < b)) : (s.writeControl c k d b).Inv where
  record := hinv.record
  bank := fun heager => BitVec.not_lt.mp fun hlt => hb ⟨heager, hlt⟩
  recovery := hinv.recovery
  oneFault := hinv.oneFault

/-- A fault of a device that may step: under HALT it is the first one (R187). -/
theorem State.Inv.raise {s : State} (hinv : s.Inv) (hrun : s.isHalted = false) (f : FaultCause) (x : FaultInfo) :
    (s.raise f x).Inv where
  record := by rw [State.raise_fault, State.raise_faultLog, hinv.record, record_recordOf]
  bank := hinv.bank
  recovery := hinv.recovery
  oneFault := by
    intro hhalt
    have hclear : s.fault.faulted = 0 := by
      rcases s.not_isHalted_iff.mp hrun with h | h
      · exact h
      · rw [State.raise_params, h] at hhalt
        cases hhalt
    rw [State.raise_faultLog, hinv.faultLog_eq_nil hclear]
    exact le_rfl

/-- Every operation on a device that may step keeps the invariant. -/
theorem exec_keeps_inv {i : Instr} {s t : State} (hinv : s.Inv) (hrun : s.isHalted = false)
    (h : exec i s = .next t) : t.Inv := by
  rcases exec_cases h with ⟨r, rfl⟩ | ⟨led, -, rfl⟩ | ⟨c, k, d, b, -, hb, rfl⟩ | ⟨f, x, r, rfl⟩
  · exact hinv.respond r
  · exact (hinv.writeLed led).respond none
  · exact (hinv.writeControl hb).respond none
  · exact (hinv.raise hrun f x).respond r

theorem attach_inv (p : Config.Params) : (State.attach p).Inv where
  record := rfl
  bank := fun _ => by simp [State.attach]
  recovery := rfl
  oneFault := fun _ => Nat.zero_le 1

/-! ### The obligations -/

/-- Settles O52: a step is idle or one operation, on a device that may step. -/
theorem stepKeepsTheMachineInvariant : Obligations.StepKeepsTheMachineInvariant := by
  intro s t hinv h
  obtain ⟨hrun, ⟨-, rfl⟩ | ⟨x, rest, -, hx⟩⟩ := step_cases h
  · exact hinv
  · exact exec_keeps_inv (hinv.present rest) hrun hx

/-- Settles O53: the attach state has a clear record, an empty log and bank code 1. -/
theorem attachMeetsTheMachineInvariant : Obligations.AttachMeetsTheMachineInvariant :=
  ⟨attach_inv, attach_inv _⟩

/-- Settles O12: fetching stops only at the halted device, and no operation answers a fault. -/
theorem faultOutcomeOnlyOfHaltedDevice : Obligations.FaultOutcomeOnlyOfHaltedDevice := by
  intro s f
  rw [← State.isHalted_iff]
  constructor
  · intro h
    rcases fetch_cases s with ⟨hhalt, -⟩ | ⟨hrun, he, -⟩ | ⟨x, rest, hrun, hx, -⟩
    · exact ⟨rfl, hhalt⟩
    · rw [step_idle hrun he] at h
      cases h
    · rw [step_cons hrun hx] at h
      exact absurd h (exec_ne_fault _ _ f)
  · rintro ⟨rfl, hhalt⟩
    exact step_halted hhalt

/-- Settles O13: only a device that may step and has an input executes it, and only the reserved kind is refused. -/
theorem refusalOnlyOfReservedKind : Obligations.RefusalOnlyOfReservedKind := by
  intro s r
  constructor
  · intro h
    rcases fetch_cases s with ⟨hhalt, -⟩ | ⟨hrun, he, -⟩ | ⟨x, rest, hrun, hx, -⟩
    · rw [step_halted hhalt] at h
      cases h
    · rw [step_idle hrun he] at h
      cases h
    · rw [step_cons hrun hx, exec_eq_refused_iff, decode_eq_reservedKind3_iff] at h
      obtain ⟨rfl, t, rfl, hkind⟩ := h
      exact ⟨rfl, hrun, t, rest, hx, hkind⟩
  · rintro ⟨rfl, hrun, t, rest, hx, hkind⟩
    rw [step_cons hrun hx, exec_eq_refused_iff, decode_eq_reservedKind3_iff]
    exact ⟨rfl, t, rfl, hkind⟩

/-- Settles O55: a step is idle or takes one input, and no operation writes what stands outside the device. -/
theorem stepTakesOneTransaction : Obligations.StepTakesOneTransaction := by
  refine ⟨fun s t h => ?_, step_lines_irrelevant⟩
  obtain ⟨-, ⟨he, rfl⟩ | ⟨x, rest, hx, hexec⟩⟩ := step_cases h
  · exact ⟨rfl, rfl, .inl ⟨he, rfl⟩⟩
  · obtain ⟨hparams, hstream, -, hdraws⟩ := exec_keeps_outside hexec
    exact ⟨hparams, exec_recoveryActive (s := s.present rest) hexec, .inr ⟨x, hstream ▸ hx, hdraws⟩⟩

/-- Settles O9: fetching leaves the state that `present` writes out. -/
theorem stepRunsDecodedInput : Obligations.StepRunsDecodedInput :=
  fun _ _ _ hrun hx => step_cons hrun hx

/-- Settles O10: the halt check comes first. -/
theorem haltedDeviceTakesNoStep : Obligations.HaltedDeviceTakesNoStep :=
  fun s hfaulted hhalt => step_halted (s.isHalted_iff.mpr ⟨hfaulted, hhalt⟩)

/-- Settles O11: an empty stream fetches nothing. -/
theorem idleHostChangesNothing : Obligations.IdleHostChangesNothing :=
  fun _ => step_idle

end Sys2Proof.Machine
end

section
/-!
PROOFS, family other, the AddressMasker and the banks (R75, R100 to R109): the closed form of a masked address, its value as a
number, and the window that each bank's pattern fills. The theorems that settle O24 to O28, O37 and O38 stand at the end.
-/

namespace Sys2Proof.Machine

/-! ### The closed form (R102) -/

/-- What a pattern makes of the address bits 20 to 18 (R102). -/
def maskedBits (p : Pattern) (x : BitVec 3) : BitVec 3 :=
  (x &&& ~~~(forceMask p)) ||| (forceValue p &&& forceMask p)

theorem getLsbD_maskedBits (p : Pattern) (x : BitVec 3) {j : Nat} (hj : j < 3) :
    (maskedBits p x).getLsbD j = if (forceMask p).getLsbD j then (forceValue p).getLsbD j else x.getLsbD j := by
  simp only [maskedBits, BitVec.getLsbD_or, BitVec.getLsbD_and, BitVec.getLsbD_not, decide_eq_true hj, Bool.true_and]
  cases (forceMask p).getLsbD j <;> simp

/-- A legal pattern masks the bits 20 to 18 and leaves those above and below (R102). -/
theorem applyMask_closedForm {p : Pattern} (hp : legalPattern p = true) (a : FlashAddr) :
    applyMask p a =
      some (a.extractLsb' 21 3 ++ maskedBits p (a.extractLsb' 18 3) ++ a.extractLsb' 0 18) := by
  obtain ⟨r, hr, houtside, hforced⟩ := applyMask_forcedBits hp a
  rw [hr, Option.some_inj]
  apply BitVec.eq_of_getLsbD_eq
  intro i hi
  rw [BitVec.getLsbD_append]
  split_ifs with hlow
  · rw [houtside i (by omega)]
    simp [hlow]
  · rw [BitVec.getLsbD_append]
    split_ifs with hmid
    · obtain ⟨j, rfl⟩ := Nat.exists_eq_add_of_le (Nat.not_lt.mp hlow)
      rw [Nat.add_sub_cancel_left] at hmid ⊢
      rw [hforced j hmid, getLsbD_maskedBits p _ hmid]
      simp [hmid]
    · rw [houtside i (by omega), BitVec.getLsbD_extractLsb', decide_eq_true (by omega), Bool.true_and]
      congr 1
      omega

/-! ### A masked address as a number -/

/-- The value of a concatenation. -/
theorem append_toNat {n m : Nat} (x : BitVec n) (y : BitVec m) : (x ++ y).toNat = x.toNat * 2 ^ m + y.toNat := by
  rw [BitVec.toNat_append, ← Nat.shiftLeft_add_eq_or_of_lt y.isLt, Nat.shiftLeft_eq]

/-- The masked bits number the 256 KiB block of the 2 MiB that the bits above select. -/
theorem applyMask_toNat {p : Pattern} (hp : legalPattern p = true) (a : FlashAddr) :
    ∃ r, applyMask p a = some r ∧
      r.toNat =
        a.toNat / 2 ^ 21 * 2 ^ 21 + (maskedBits p (a.extractLsb' 18 3)).toNat * 2 ^ 18 + a.toNat % 2 ^ 18 := by
  refine ⟨_, applyMask_closedForm hp a, ?_⟩
  simp only [append_toNat, BitVec.extractLsb'_toNat, Nat.shiftRight_eq_div_pow]
  omega

/-! ### The windows of the banks (R107) -/

/-- The window `lo` to `hi` is whole blocks of 256 KiB, and the blocks that the pattern can select are exactly its blocks,
each selected by its own number. -/
def FillsWindow (p : Pattern) (lo hi : Nat) : Prop :=
  lo % 2 ^ 18 = 0 ∧ hi % 2 ^ 18 = 2 ^ 18 - 1 ∧ hi < 2 ^ 21 ∧
    ∀ x : BitVec 3,
      lo / 2 ^ 18 ≤ (maskedBits p x).toNat ∧ (maskedBits p x).toNat ≤ hi / 2 ^ 18 ∧
        (lo / 2 ^ 18 ≤ x.toNat → x.toNat ≤ hi / 2 ^ 18 → maskedBits p x = x)

/-- Each pattern of R105 fills the window that R107 prints for its bank. -/
theorem bankWindow_filled {code : BankCode} {lo hi : Nat} (h : bankWindow code = some (lo, hi)) :
    ∃ p, maskForBank code = some p ∧ legalPattern p = true ∧ FillsWindow p lo hi := by
  have hall : ∀ c : BankCode, ∀ w ∈ bankWindow c,
      ∃ p ∈ maskForBank c, legalPattern p = true ∧ FillsWindow p w.1 w.2 := by
    unfold FillsWindow
    decide
  exact hall code (lo, hi) h

/-- A masked address lies in the window, moved up by the address bits 23 to 21. -/
theorem FillsWindow.applyMask_mem {p : Pattern} {lo hi : Nat} (hw : FillsWindow p lo hi) (hp : legalPattern p = true)
    (a : FlashAddr) :
    ∃ r, applyMask p a = some r ∧
      a.toNat / 2 ^ 21 * 2 ^ 21 + lo ≤ r.toNat ∧ r.toNat ≤ a.toNat / 2 ^ 21 * 2 ^ 21 + hi := by
  obtain ⟨hlo, hhi, -, hblocks⟩ := hw
  obtain ⟨r, hr, hval⟩ := applyMask_toNat hp a
  obtain ⟨hfirst, hlast, -⟩ := hblocks (a.extractLsb' 18 3)
  exact ⟨r, hr, by omega, by omega⟩

/-- An address inside the window is its own masked address. -/
theorem FillsWindow.applyMask_self {p : Pattern} {lo hi : Nat} (hw : FillsWindow p lo hi) (hp : legalPattern p = true)
    {a : FlashAddr} (hfirst : lo ≤ a.toNat % 2 ^ 21) (hlast : a.toNat % 2 ^ 21 ≤ hi) : applyMask p a = some a := by
  obtain ⟨hlo, hhi, -, hblocks⟩ := hw
  obtain ⟨r, hr, hval⟩ := applyMask_toNat hp a
  have hblock : (a.extractLsb' 18 3).toNat = a.toNat / 2 ^ 18 % 2 ^ 3 := by
    rw [BitVec.extractLsb'_toNat, Nat.shiftRight_eq_div_pow]
  obtain ⟨-, -, hself⟩ := hblocks (a.extractLsb' 18 3)
  rw [hself (by omega) (by omega), hblock] at hval
  rw [hr, BitVec.eq_of_toNat_eq (show r.toNat = a.toNat by omega)]

/-- `code` maps some address of the first 2 MiB to `r` (R107). -/
def BankReaches (code : BankCode) (r : FlashAddr) : Prop :=
  ∃ p a, maskForBank code = some p ∧ a.toNat < 2 ^ 21 ∧ applyMask p a = some r

/-- What a bank reaches from the first 2 MiB is its window. -/
theorem bankReaches_iff {code : BankCode} {lo hi : Nat} (h : bankWindow code = some (lo, hi)) (r : FlashAddr) :
    BankReaches code r ↔ lo ≤ r.toNat ∧ r.toNat ≤ hi := by
  obtain ⟨p, hp, hlegal, hw⟩ := bankWindow_filled h
  constructor
  · rintro ⟨q, a, hq, ha, hr⟩
    obtain rfl : p = q := Option.some_inj.mp (hp ▸ hq)
    obtain ⟨r', hr', hfirst, hlast⟩ := hw.applyMask_mem hlegal a
    obtain rfl : r' = r := Option.some_inj.mp (hr' ▸ hr)
    omega
  · rintro ⟨hfirst, hlast⟩
    obtain ⟨-, -, hhi, -⟩ := id hw
    exact ⟨p, r, hp, by omega, hw.applyMask_self hlegal (by omega) (by omega)⟩

/-! ### APPLY_MASK as an operation -/

/-- Bit `j` of the force mask and of the force value are the two bits of symbol `2 - j` (R75). -/
theorem getLsbD_forceMask_forceValue (p : Pattern) {j : Nat} (hj : j < 3) :
    (forceMask p).getLsbD j = p.getLsbD (2 * j + 1) ∧ (forceValue p).getLsbD j = p.getLsbD (2 * j) := by
  revert p j
  decide

/-- One symbol 0b01 makes a pattern illegal (R74, R75). -/
theorem legalPattern_of_illegalSymbol {p : Pattern} {i : Nat} (hi : i < 3)
    (h : p.extractLsb' (4 - 2 * i) 2 = 0b01) : legalPattern p = false := by
  revert p i
  decide

theorem exec_applyMask_of_some {p : Pattern} {a r : FlashAddr} (h : applyMask p a = some r) (s : State) :
    exec (.applyMask p a) s = .next (s.respond (some (.address r))) := by
  simp only [exec, execApplyMask, h]

theorem exec_applyMask_of_none {p : Pattern} {a : FlashAddr} (h : applyMask p a = none) (s : State) :
    exec (.applyMask p a) s =
      .next (faultedState 7 .invalidPatternSymbol ((p.setWidth 30 <<< 24) ||| a.setWidth 30) none s) := by
  simp only [exec, execApplyMask, h, State.raise_respond, faultCode, maskInputWord_info]

/-- Every pattern of the BankTable is legal (R109). -/
theorem legalPattern_of_maskForBank {code : BankCode} {p : Pattern} (h : maskForBank code = some p) :
    legalPattern p = true := by
  rcases Nat.lt_or_ge 10 code.toNat with hgt | hle
  · rw [maskForBank_of_lt hgt] at h
    cases h
  · obtain ⟨q, hq, hlegal⟩ := maskForBank_of_le hle
    exact Option.some_inj.mp (hq ▸ h) ▸ hlegal

/-! ### The obligations -/

/-- Settles O24: bit by bit, a legal pattern forces the bits of its force mask and no other. -/
theorem applyMaskClosedForm : Obligations.ApplyMaskClosedForm := by
  intro p a
  split_ifs with hp
  · exact applyMask_closedForm hp a
  · exact applyMask_illegal (Bool.eq_false_of_not_eq_true hp) a

/-- Settles O26: the BankTable's patterns are legal, so a translation's one fault is the undefined bank. -/
theorem translationNeverRaisesInvalidSymbol : Obligations.TranslationNeverRaisesInvalidSymbol := by
  refine ⟨fun _ _ => legalPattern_of_maskForBank, fun a s => ?_⟩
  rcases Nat.lt_or_ge 10 s.regs.bankControl.toNat with hgt | hle
  · refine ⟨_, exec_xlat_of_lt hgt a, fun e he => ?_⟩
    rw [State.respond_faultLog, State.raise_faultLog, List.mem_append, List.mem_singleton] at he
    rcases he with he | rfl
    · exact .inl he
    · exact .inr rfl
  · obtain ⟨r, hr⟩ := exec_xlat_of_le hle a
    exact ⟨_, hr s rfl, fun e he => .inl he⟩

/-- Settles O27: a bank's pattern selects the blocks of its window, and leaves an address inside it alone. -/
theorem bankMapsOntoItsWindow : Obligations.BankMapsOntoItsWindow := by
  intro code lo hi h
  obtain ⟨p, hp, hlegal, hw⟩ := bankWindow_filled h
  refine ⟨p, hp, hw.applyMask_mem hlegal, fun top n htop hlo hhi => ?_⟩
  obtain ⟨-, -, hbound, -⟩ := id hw
  have hval : (BitVec.ofNat 24 (top * 2 ^ 21 + n)).toNat = top * 2 ^ 21 + n := by
    rw [BitVec.toNat_ofNat, Nat.mod_eq_of_lt (by omega)]
  exact ⟨_, by omega, hw.applyMask_self hlegal (by omega) (by omega)⟩

/-- Settles O28: what each bank reaches is its window, and the printed windows cover or miss each other as intervals. -/
theorem bankWindowsOverlap : Obligations.BankWindowsOverlap := by
  unfold Obligations.BankWindowsOverlap
  intro reaches
  have h (code : BankCode) {lo hi : Nat} (hw : bankWindow code = some (lo, hi)) (r : FlashAddr) :
      reaches code r ↔ lo ≤ r.toNat ∧ r.toNat ≤ hi := bankReaches_iff hw r
  simp only [h 0 rfl, h 1 rfl, h 2 rfl, h 3 rfl, h 4 rfl, h 5 rfl, h 6 rfl, h 7 rfl, h 8 rfl, h 9 rfl, h 10 rfl]
  refine ⟨?_, ?_, ?_, ?_, ?_, ?_, ?_, ?_⟩ <;> intro r <;> omega

/-- Settles O25, over the 64 patterns. -/
theorem legalPatternByForceBits : Obligations.LegalPatternByForceBits := by
  unfold Obligations.LegalPatternByForceBits
  decide

/-- Settles O37: symbol `i` is bit `2 - i` of the force mask and the force value. -/
theorem applyMaskCompletes : Obligations.ApplyMaskCompletes := by
  intro p a s hp
  obtain ⟨r, hr, houtside, hforced⟩ := applyMask_forcedBits hp a
  refine ⟨r, exec_applyMask_of_some hr s, houtside, fun i hi => ?_⟩
  obtain ⟨hmask, hvalue⟩ := getLsbD_forceMask_forceValue p (show 2 - i < 3 by omega)
  have h := hforced (2 - i) (by omega)
  rw [hmask, hvalue] at h
  rwa [show 20 - i = 18 + (2 - i) by omega, show 5 - 2 * i = 2 * (2 - i) + 1 by omega,
    show 4 - 2 * i = 2 * (2 - i) by omega]

/-- Settles O38: one illegal symbol makes the pattern illegal, and an illegal pattern has no result. -/
theorem applyMaskOfIllegalSymbolTraps : Obligations.ApplyMaskOfIllegalSymbolTraps :=
  fun _ a s _ hi h => exec_applyMask_of_none (applyMask_illegal (legalPattern_of_illegalSymbol hi h) a) s

end Sys2Proof.Machine
end

section
/-!
PROOFS, family other, the effect of each operation (R120 to R125, R140 to R144, R160, R180 to R185), one equation per
operation and outcome. The theorems that settle O29 to O36, O49 to O51 and O56 stand at the end.
-/

namespace Sys2Proof.Machine

/-! ### Port writes -/

/-- WR0 stores the LED bits (R120). -/
theorem exec_wr0 (led : BitVec 3) (s : State) : exec (.wr0 led) s = .next ((s.writeLed led).respond none) :=
  rfl

/-- Where EAGER does not reject the code, WR1 stores its operands (R122). -/
theorem exec_wr1_store {s : State} {b : BankCode} (h : ¬ (s.params.bankValidation = .eager ∧ lastBank < b))
    (c k d : Bit) : exec (.wr1 c k d b) s = .next ((s.writeControl c k d b).respond none) :=
  if_neg h

/-- Where EAGER rejects the code, WR1 takes fault 6 with its word as info (R123). -/
theorem exec_wr1_trap {s : State} {b : BankCode} (h : s.params.bankValidation = .eager ∧ lastBank < b) (c k d : Bit) :
    exec (.wr1 c k d b) s =
      .next (faultedState 6 .writeUndefinedBank (0x1000100#30 ||| (reg1Byte c k d b).setWidth 30) none s) := by
  rw [exec, execWr1, if_pos h, State.raise_respond, wordInfo_write1, faultCode]

/-- WR_UNKNOWN takes fault 3 with its word as info (R125). -/
theorem exec_wrUnknown (idx : RegIndex) (v : Byte) (s : State) :
    exec (.wrUnknown idx v) s =
      .next (faultedState 3 .unknownRegisterWrite
        (0x1000000#30 ||| (idx.setWidth 30 <<< 8) ||| v.setWidth 30) none s) := by
  rw [exec, execWrUnknown, State.raise_respond, wordInfo_write, faultCode]

/-- The largest defined code, as a number (R76). -/
theorem lastBank_lt_iff (b : BankCode) : lastBank < b ↔ 10 < b.toNat :=
  BitVec.lt_def

/-- The word of WR1_RSV as a number (R124). -/
theorem wordInfo_reg1RsvByte (v : BitVec 7) :
    0x1000100#30 ||| (reg1RsvByte v).setWidth 30 = 0x1000180#30 ||| v.setWidth 30 := by
  revert v
  decide

/-- The word of WR1 by its operands (R78). -/
theorem wordInfo_reg1Byte (c k d : Bit) (b : BankCode) :
    0x1000100#30 ||| (reg1Byte c k d b).setWidth 30 =
      0x1000100#30 ||| (c.setWidth 30 <<< 6) ||| (k.setWidth 30 <<< 5) ||| (d.setWidth 30 <<< 4) |||
        b.setWidth 30 := by
  revert c k d b
  decide

/-! ### Port reads -/

/-- The status byte, field by field (R40). -/
theorem statusByte_eq_append (r d1 d4 : Bit) (b : BankCode) :
    statusByte r d1 d4 b = r ++ 0#1 ++ d1 ++ d4 ++ b := by
  revert r d1 d4 b
  decide

theorem recoveryFlag_eq (s : State) :
    recoveryFlag s = if s.params.recoverySource = .held then s.regs.recoveryActive else s.lines.recoveryN := by
  unfold recoveryFlag
  cases s.params.recoverySource <;> rfl

theorem dataOut1_eq (s : State) :
    dataOut1 s = if s.params.doutSource = .zero then 0#1 else s.lines.dataOut1 := by
  unfold dataOut1
  cases s.params.doutSource <;> rfl

theorem dataOut4_eq (s : State) :
    dataOut4 s = if s.params.doutSource = .zero then 0#1 else s.lines.dataOut4 := by
  unfold dataOut4
  cases s.params.doutSource <;> rfl

theorem recoveryFlag_held {s : State} (h : s.params.recoverySource = .held) : recoveryFlag s = s.regs.recoveryActive := by
  simp only [recoveryFlag, h]

theorem recoveryFlag_line {s : State} (h : s.params.recoverySource = .line) : recoveryFlag s = s.lines.recoveryN := by
  simp only [recoveryFlag, h]

theorem dataOut_zero {s : State} (h : s.params.doutSource = .zero) : dataOut1 s = 0 ∧ dataOut4 s = 0 := by
  simp only [dataOut1, dataOut4, h, and_self]

theorem dataOut_line {s : State} (h : s.params.doutSource = .line) :
    dataOut1 s = s.lines.dataOut1 ∧ dataOut4 s = s.lines.dataOut4 := by
  simp only [dataOut1, dataOut4, h, and_self]

/-- RD1 answers the status byte, and the response is all that changes (R141). -/
theorem exec_rd1 (v : Byte) (s : State) :
    exec (.rd1 v) s =
      .next (s.respond (some (.byte (statusByte (recoveryFlag s) (dataOut1 s) (dataOut4 s) s.regs.bankControl)))) :=
  rfl

/-- RD_UNKNOWN takes fault 4 with its word as info (R144). -/
theorem exec_rdUnknown (idx : RegIndex) (v : Byte) (s : State) :
    exec (.rdUnknown idx v) s =
      .next (faultedState 4 .unknownRegisterRead ((idx.setWidth 30 <<< 8) ||| v.setWidth 30)
        (faultingReadResponse s) s) := by
  rw [exec, execRdUnknown, State.raise_respond, wordInfo_read, faultCode]

/-- A faulting read answers nothing under HALT (R184). -/
theorem faultingReadResponse_halting {s : State} (h : s.params.onFault = .halting) : faultingReadResponse s = none := by
  simp only [faultingReadResponse, h]

/-- Under CONTINUE it answers a free byte (R184). -/
theorem faultingReadResponse_continuing {s : State} (h : s.params.onFault = .continuing) :
    faultingReadResponse s = some (.byte (Config.freeByte s.draws)) := by
  simp only [faultingReadResponse, h]

/-- The status byte outside the bits 7, 5 and 4 is the bank code (R142). -/
theorem statusByte_and (r d1 d4 : Bit) (b : BankCode) : statusByte r d1 d4 b &&& 0x4F = b.setWidth 8 := by
  revert r d1 d4 b
  decide

/-! ### The attached block (R213) -/

/-- Under the loader bank every address goes to block 6 of its 2 MiB (R107, R213). -/
theorem applyMask_loaderBank (a : FlashAddr) :
    applyMask 0x3E a = some (a.extractLsb' 21 3 ++ 0b110#3 ++ a.extractLsb' 0 18) := by
  have hbits : ∀ x : BitVec 3, maskedBits 0x3E x = 0b110#3 := by decide
  rw [applyMask_closedForm (by decide), hbits]

/-- A register-1 read with the loader bank and the recovery flag at 1 (R213). -/
theorem statusByte_attached (d1 d4 : Bit) :
    statusByte 1 d1 d4 1 = 0x81#8 ||| (d1.setWidth 8 <<< 5) ||| (d4.setWidth 8 <<< 4) := by
  revert d1 d4
  decide

/-! ### The obligations -/

/-- Settles O29. -/
theorem registerWritesComplete : Obligations.RegisterWritesComplete := by
  refine ⟨exec_wr0, fun c k d b s h => exec_wr1_store ?_ c k d⟩
  rintro ⟨heager, hb⟩
  rw [lastBank_lt_iff] at hb
  rcases h with hlazy | hle
  · rw [heager] at hlazy
    cases hlazy
  · omega

/-- Settles O30. -/
theorem rejectedWritesRecordTheirFault : Obligations.RejectedWritesRecordTheirFault :=
  ⟨exec_wr0Rsv, fun v s => wordInfo_reg1RsvByte v ▸ exec_wr1Rsv v s, exec_wrUnknown⟩

/-- Settles O31. -/
theorem eagerWriteOfUndefinedBankTraps : Obligations.EagerWriteOfUndefinedBankTraps := by
  intro c k d b s heager hb
  rw [exec_wr1_trap ⟨heager, (lastBank_lt_iff b).mpr hb⟩, wordInfo_reg1Byte]

/-- Settles O32. -/
theorem registerReadsComplete : Obligations.RegisterReadsComplete := by
  refine ⟨exec_rd0, fun v s => ?_⟩
  rw [exec_rd1, statusByte_eq_append, recoveryFlag_eq, dataOut1_eq, dataOut4_eq, State.respond]

/-- Settles O33. -/
theorem unknownReadRecordsItsFault : Obligations.UnknownReadRecordsItsFault :=
  fun idx v s => ⟨_, exec_rdUnknown idx v s, faultingReadResponse_halting,
    fun h => ⟨_, faultingReadResponse_continuing h⟩⟩

/-- Settles O34: a defined code has a legal pattern, and it is the printed one. -/
theorem translationCompletes : Obligations.TranslationCompletes := by
  intro a s hle
  obtain ⟨p, hp, hlegal⟩ := maskForBank_of_le hle
  obtain ⟨r, hr, -⟩ := applyMask_legal hlegal a
  exact ⟨p, r, maskForBank_eq_bankEncoding _ ▸ hp, hr, exec_xlat_of_some hp hr⟩

/-- Settles O35: an undefined code has no pattern. -/
theorem translationOfUndefinedBankTraps : Obligations.TranslationOfUndefinedBankTraps :=
  fun a _ hgt => ⟨_, exec_xlat_undefinedBank hgt a⟩

/-- Settles O36. -/
theorem reservedKindIsRefused : Obligations.ReservedKindIsRefused :=
  exec_reservedKind3

/-- Settles O49: a store done twice stores the same fields, and a WR1 that traps adds to the log. -/
theorem repeatedWriteChangesNothing : Obligations.RepeatedWriteChangesNothing := by
  rintro i s t (⟨led, rfl⟩ | ⟨c, k, d, b, rfl⟩) h hlog
  · rw [exec_wr0] at h
    cases h
    rfl
  · by_cases htrap : s.params.bankValidation = .eager ∧ lastBank < b
    · rw [exec_wr1_trap htrap] at h
      cases h
      simp [faultedState] at hlog
    · rw [exec_wr1_store htrap] at h
      cases h
      exact exec_wr1_store (s := (s.writeControl c k d b).respond none) htrap c k d

/-- Settles O50: RD0 answers a constant, RD1 reads none of the four fields, RD_UNKNOWN answers by the parameters. -/
theorem readsIgnoreWriteOnlyFields : Obligations.ReadsIgnoreWriteOnlyFields := by
  rintro s led c k d v i (rfl | rfl | ⟨x, rfl⟩)
  · exact ⟨_, _, rfl, rfl, rfl⟩
  · exact ⟨_, _, rfl, rfl, rfl⟩
  · exact ⟨_, _, rfl, rfl, rfl⟩

/-- Settles O51: the bits outside the mask come from the bank code, and under ZERO and HELD the others from the parameters
and the recovery flag. -/
theorem readsDifferOnlyInInputLines : Obligations.ReadsDifferOnlyInInputLines := by
  intro s u v w hparams hbank hrec
  refine ⟨_, _, _, _, exec_rd1 v s, exec_rd1 w u, rfl, rfl, ?_, fun hzero hheld => ?_⟩
  · rw [statusByte_and, statusByte_and, hbank]
  · obtain ⟨hs1, hs4⟩ := dataOut_zero hzero
    obtain ⟨hu1, hu4⟩ := dataOut_zero (s := u) (hparams ▸ hzero)
    rw [recoveryFlag_held hheld, recoveryFlag_held (s := u) (hparams ▸ hheld), hs1, hs4, hu1, hu4, hrec, hbank]

/-- Settles O56: the attach state holds bank code 1 and the recovery flag 1. -/
theorem attachedBlockUsesLoaderBank : Obligations.AttachedBlockUsesLoaderBank := by
  intro p
  refine ⟨fun a => ⟨_, exec_xlat_of_some (s := State.attach p) (p := 0x3E) rfl (applyMask_loaderBank a), rfl⟩,
    fun hheld v l => ⟨_, _, _, exec_rd1 v _, ?_, dataOut_zero (s := { State.attach p with lines := l }),
      dataOut_line (s := { State.attach p with lines := l })⟩⟩
  rw [State.respond_response, recoveryFlag_held (s := { State.attach p with lines := l }) hheld, ← statusByte_attached]
  rfl

end Sys2Proof.Machine
end

section
/-!
PROOFS, family other, the transactions over the raw fields (R11): the decoded operation of each format does what the reference
of Safety.lean does with the word's index, byte and address, and so one step of each port access. The theorems that settle O14,
O16, O18, O20, O21 and O48 stand at the end.
-/

namespace Sys2Proof.Machine

/-! ### The byte of a register-1 write, read three ways -/

/-- The fields of the byte as the decoder and as the pseudocode take them (R78). -/
theorem reg1Fields_eq_shift (v : Byte) :
    v.extractLsb' 6 1 = (v >>> 6).setWidth 1 ∧ v.extractLsb' 5 1 = (v >>> 5).setWidth 1 ∧
      v.extractLsb' 4 1 = (v >>> 4).setWidth 1 ∧ v.extractLsb' 0 4 = (v &&& 0x0F#8).setWidth 4 := by
  revert v
  decide

/-- The fields as bits and as the number's remainder. -/
theorem reg1Fields_eq_bits (v : Byte) :
    v.extractLsb' 6 1 = BitVec.ofBool (v.getLsbD 6) ∧ v.extractLsb' 5 1 = BitVec.ofBool (v.getLsbD 5) ∧
      v.extractLsb' 4 1 = BitVec.ofBool (v.getLsbD 4) ∧ v.extractLsb' 0 4 = BitVec.ofNat 4 v.toNat := by
  revert v
  decide

/-- The bank range, checked on the field (R123). -/
theorem lastBank_lt_extract_iff (v : Byte) : lastBank < v.extractLsb' 0 4 ↔ 10 < v.toNat % 16 := by
  rw [lastBank_lt_iff, BitVec.extractLsb'_toNat, Nat.shiftRight_zero]

/-- The bank range, checked on the masked byte. -/
theorem masked_bank_lt_iff (v : Byte) : 10#8 < v &&& 0x0F#8 ↔ 10 < v.toNat % 16 := by
  revert v
  decide

/-! ### The pseudocode of a port write, register by register -/

/-- Register 0: bits 7 to 3 are checked, bits 2 to 0 stored (R120, R121). -/
theorem referenceWrite_zero (v : Byte) (s : State) :
    referenceWrite 0 v s =
      if v.toNat < 8 then (s.writeLed (v.setWidth 3)).respond none
      else faultedState 1 .reg0ReservedBits (0x1000000#30 ||| v.setWidth 30) none s := by
  simp only [← and_reg0Reserved_eq_zero_iff]
  rfl

/-- Register 1: bit 7 is checked, then the bank range under EAGER, then all four fields are stored (R122 to R124). -/
theorem referenceWrite_one (v : Byte) (s : State) :
    referenceWrite 1 v s =
      if ¬ v.toNat < 128 then faultedState 2 .reg1ReservedBit (0x1000100#30 ||| v.setWidth 30) none s
      else if s.params.bankValidation = .eager ∧ 10 < v.toNat % 16 then
        faultedState 6 .writeUndefinedBank (0x1000100#30 ||| v.setWidth 30) none s
      else
        (s.writeControl (v.extractLsb' 6 1) (v.extractLsb' 5 1) (v.extractLsb' 4 1) (v.extractLsb' 0 4)).respond
          none := by
  obtain ⟨hc, hk, hd, hb⟩ := reg1Fields_eq_shift v
  simp only [← and_reg1Reserved_eq_zero_iff, ← masked_bank_lt_iff, hc, hk, hd, hb]
  rfl

/-- Any other index is unknown (R125). -/
theorem referenceWrite_unknown {idx : RegIndex} (h0 : ¬ idx = 0) (h1 : ¬ idx = 1) (v : Byte) (s : State) :
    referenceWrite idx v s =
      faultedState 3 .unknownRegisterWrite (0x1000000#30 ||| (idx.setWidth 30 <<< 8) ||| v.setWidth 30) none s := by
  rw [referenceWrite, if_neg h0, if_neg h1]

/-! ### The reference, format by format -/

/-- `OUT 0, v` does what the pseudocode does. -/
theorem exec_write0 (v : Byte) (s : State) :
    exec (decode (.transaction (0x1000000#26 ||| v.setWidth 26))) s = .next (referenceWrite 0 v s) := by
  rw [decode_write0, referenceWrite_zero]
  split_ifs
  · exact exec_wr0 _ s
  · exact exec_wr0Rsv v s

/-- `OUT 1, v` does what the pseudocode does. -/
theorem exec_write1 (v : Byte) (s : State) :
    exec (decode (.transaction (0x1000100#26 ||| v.setWidth 26))) s = .next (referenceWrite 1 v s) := by
  rw [decode_write1, referenceWrite_one]
  simp only [← lastBank_lt_extract_iff]
  by_cases hv : v.toNat < 128
  · rw [if_pos hv, if_neg (not_not_intro hv)]
    split_ifs with htrap
    · rw [exec_wr1_trap htrap, reg1Byte_extract ((and_reg1Reserved_eq_zero_iff v).mpr hv)]
    · exact exec_wr1_store htrap _ _ _
  · rw [if_neg hv, if_pos hv, exec_wr1Rsv, reg1RsvByte_extract (Nat.not_lt.mp hv)]

/-- A port write does what the pseudocode does with its index and byte. -/
theorem exec_portWrite (idx : RegIndex) (v : Byte) (s : State) :
    exec (decode (.transaction (portWriteWord idx v))) s = .next (referenceWrite idx v s) := by
  by_cases h0 : idx = 0
  · rw [h0, portWriteWord, ← exec_write0, word_write0]
    rfl
  · by_cases h1 : idx = 1
    · rw [h1, portWriteWord, ← exec_write1, word_write1]
      rfl
    · rw [decode_portWriteWord, if_neg h0, if_neg h1, exec_wrUnknown, referenceWrite_unknown h0 h1]

/-- A faulting read's answer, as the pseudocode writes it (R184). -/
theorem faultingReadResponse_eq (s : State) :
    faultingReadResponse s =
      if s.params.onFault = .continuing then some (.byte (Config.freeByte s.draws)) else none := by
  unfold faultingReadResponse
  cases s.params.onFault <;> rfl

/-- A port read does what the pseudocode does with its index. -/
theorem exec_portRead (idx : RegIndex) (v : Byte) (s : State) :
    exec (decode (.transaction (portReadWord idx v))) s = .next (referenceRead idx v s) := by
  rw [decode_portReadWord, referenceRead]
  by_cases h0 : idx = 0
  · rw [if_pos h0, if_pos h0, exec_rd0, State.respond]
  · by_cases h1 : idx = 1
    · rw [if_neg h0, if_neg h0, if_pos h1, if_pos h1, exec_rd1, statusByte_eq_append, recoveryFlag_eq, dataOut1_eq,
        dataOut4_eq, State.respond]
      rfl
    · rw [if_neg h0, if_neg h0, if_neg h1, if_neg h1, exec_rdUnknown, faultingReadResponse_eq]

/-- A translation does what the pseudocode does with its address: the columns M and V are the pattern's force mask and
value. -/
theorem exec_translate (a : FlashAddr) (s : State) : exec (.xlat a) s = .next (referenceTranslate a s) := by
  rw [referenceTranslate, bankForce_eq_maskForBank]
  rcases Nat.lt_or_ge 10 s.regs.bankControl.toNat with hgt | hle
  · rw [maskForBank_of_lt hgt, exec_xlat_undefinedBank hgt]
    rfl
  · obtain ⟨p, hp, hlegal⟩ := maskForBank_of_le hle
    rw [exec_xlat_of_some hp (applyMask_closedForm hlegal a), hp]
    rfl

/-- The reference of a port word is that of its index and byte. -/
theorem referenceTransaction_portRead (idx : RegIndex) (v : Byte) (s : State) :
    referenceTransaction (portReadWord idx v) s = some (referenceRead idx v s) := by
  rw [referenceTransaction, portReadWord, wordIndex_append, wordData_append]
  exact if_pos (wordKind_append _ _ _)

theorem referenceTransaction_portWrite (idx : RegIndex) (v : Byte) (s : State) :
    referenceTransaction (portWriteWord idx v) s = some (referenceWrite idx v s) := by
  have hkind : (portWriteWord idx v).extractLsb' 24 2 = 1 := wordKind_append _ _ _
  rw [referenceTransaction, hkind, portWriteWord, wordIndex_append, wordData_append]
  rfl

theorem referenceTransaction_translate (a : FlashAddr) (s : State) :
    referenceTransaction (translateWord a) s = some (referenceTranslate a s) := by
  have hkind : (translateWord a).extractLsb' 24 2 = 2 := BitVec.extractLsb'_append_eq_left
  have haddr : (translateWord a).setWidth 24 = a := BitVec.setWidth_append_eq_right
  rw [referenceTransaction, hkind, haddr]
  rfl

theorem referenceTransaction_reserved (w : BitVec 24) (s : State) :
    referenceTransaction (reservedWord w) s = none := by
  have hkind : (reservedWord w).extractLsb' 24 2 = 3 := BitVec.extractLsb'_append_eq_left
  rw [referenceTransaction, hkind]
  rfl

/-! ### One step of a port access -/

/-- A step of `OUT idx, v`. -/
theorem step_portWrite {s : State} {idx : RegIndex} {v : Byte} {rest : List Input} (hrun : s.isHalted = false)
    (hx : s.stream = .transaction (0x1000000#26 ||| (idx.setWidth 26 <<< 8) ||| v.setWidth 26) :: rest) :
    step s = .next (referenceWrite idx v (s.present rest)) := by
  rw [word_write] at hx
  rw [step_cons hrun hx]
  exact exec_portWrite idx v (s.present rest)

/-- A step of `IN idx`. -/
theorem step_portRead {s : State} {idx : RegIndex} {v : Byte} {rest : List Input} (hrun : s.isHalted = false)
    (hx : s.stream = .transaction ((idx.setWidth 26 <<< 8) ||| v.setWidth 26) :: rest) :
    step s = .next (referenceRead idx v (s.present rest)) := by
  rw [word_read] at hx
  rw [step_cons hrun hx]
  exact exec_portRead idx v (s.present rest)

/-- `IN 1` is RD1 whatever the data bits of its word (R79). -/
theorem decode_read1 (d : Byte) : decode (.transaction (0x0000100#26 ||| d.setWidth 26)) = .rd1 d := by
  rw [word_read1]
  exact decode_portReadWord 1 d

/-- What the pseudocode of a port write adds to the log (R183). -/
theorem referenceWrite_causes (idx : RegIndex) (v : Byte) (s : State) :
    (referenceWrite idx v s).faultLog.map FaultEntry.cause =
      s.faultLog.map FaultEntry.cause ++
        (if 2 ≤ idx.toNat then [.unknownRegisterWrite]
        else if idx = 0 then (if v.toNat < 8 then [] else [.reg0ReservedBits])
        else if 128 ≤ v.toNat then [.reg1ReservedBit]
        else if s.params.bankValidation = .eager ∧ 10 < v.toNat % 16 then [.writeUndefinedBank]
        else []) := by
  by_cases h0 : idx = 0
  · subst h0
    rw [referenceWrite_zero]
    by_cases hv : v.toNat < 8 <;> simp [hv, faultedState]
  · by_cases h1 : idx = 1
    · subst h1
      rw [referenceWrite_one]
      by_cases hv : v.toNat < 128
      · by_cases htrap : s.params.bankValidation = .eager ∧ 10 < v.toNat % 16
        · simp [hv, Nat.not_le.mpr hv, htrap, faultedState]
        · rw [if_neg (not_not_intro hv), if_neg htrap, if_neg htrap]
          simp [Nat.not_le.mpr hv]
      · simp [hv, Nat.not_lt.mp hv, faultedState]
    · have h2 : 2 ≤ idx.toNat := BitVec.le_def.mp ((two_le_index_iff idx).mpr ⟨h0, h1⟩)
      rw [referenceWrite_unknown h0 h1, if_pos h2]
      exact List.map_append

/-- The bits of the status byte (R40, R141). -/
theorem statusByte_fields (r d1 d4 : Bit) (b : BankCode) :
    (statusByte r d1 d4 b).extractLsb' 0 4 = b ∧ (statusByte r d1 d4 b).getLsbD 6 = false ∧
      (statusByte r d1 d4 b).extractLsb' 7 1 = r ∧ (statusByte r d1 d4 b).extractLsb' 5 1 = d1 ∧
        (statusByte r d1 d4 b).extractLsb' 4 1 = d4 := by
  revert r d1 d4 b
  decide

/-! ### The obligations -/

/-- Settles O14: every word is of one of the four formats, and each does what the reference does. -/
theorem transactionsFollowThePseudocode : Obligations.TransactionsFollowThePseudocode := by
  intro t s
  rcases word_cases t with ⟨i, d, rfl⟩ | ⟨i, d, rfl⟩ | ⟨a, rfl⟩ | ⟨w, rfl⟩
  · rw [exec_portRead, referenceTransaction_portRead]
  · rw [exec_portWrite, referenceTransaction_portWrite]
  · rw [decode_translateWord, exec_translate, referenceTransaction_translate]
  · rw [decode_reservedWord, exec_reservedKind3, referenceTransaction_reserved]

/-- Settles O16: with bit 7 clear the pseudocode stores, unless EAGER rejects the code. -/
theorem register1WriteRule : Obligations.Register1WriteRule := by
  intro s v rest hrun hv hx
  obtain ⟨hc, hk, hd, hb⟩ := reg1Fields_eq_bits v
  rw [step_cons hrun hx, exec_write1, referenceWrite_one, if_neg (not_not_intro hv), hc, hk, hd, hb]
  rfl

/-- Settles O18: the checks of the pseudocode are made in the order of R183. -/
theorem portWriteFaultPriority : Obligations.PortWriteFaultPriority :=
  fun _ idx v _ hrun hx => ⟨_, step_portWrite hrun hx, referenceWrite_causes idx v _⟩

/-- Settles O20: the fields of the status byte, each from its source. -/
theorem register1ReadRule : Obligations.Register1ReadRule := by
  intro s d rest hrun hx
  have hstep := step_cons hrun hx
  rw [decode_read1, exec_rd1] at hstep
  obtain ⟨hbank, hzero, hrec, hd1, hd4⟩ := statusByte_fields (recoveryFlag (s.present rest)) (dataOut1 (s.present rest))
    (dataOut4 (s.present rest)) s.regs.bankControl
  refine ⟨_, hstep, hbank, hzero, ?_, ?_, ?_, ?_⟩
  · exact fun h => hrec.trans (recoveryFlag_held (s := s.present rest) h)
  · exact fun h => hrec.trans (recoveryFlag_line (s := s.present rest) h)
  · intro h
    obtain ⟨h1, h4⟩ := dataOut_zero (s := s.present rest) h
    exact ⟨hd1.trans h1, hd4.trans h4⟩
  · intro h
    obtain ⟨h1, h4⟩ := dataOut_line (s := s.present rest) h
    exact ⟨hd1.trans h1, hd4.trans h4⟩

/-- Settles O21: an index of 2 or more is neither 0 nor 1. -/
theorem unknownRegisterRule : Obligations.UnknownRegisterRule := by
  intro s idx v rest hrun hidx
  obtain ⟨h0, h1⟩ := (two_le_index_iff idx).mp (BitVec.le_def.mpr hidx)
  refine ⟨fun hx => ?_, fun hx => ?_⟩
  · rw [step_portWrite hrun hx, referenceWrite_unknown h0 h1]
  · rw [step_portRead hrun hx, referenceRead, if_neg h0, if_neg h1, ← faultingReadResponse_eq]
    exact ⟨_, rfl, faultingReadResponse_halting (s := s.present rest),
      fun h => ⟨_, faultingReadResponse_continuing (s := s.present rest) h⟩⟩

/-- `OUT 1, v` with a defined code stores the code under both settings of BANK_VALIDATION, and the device runs on. -/
theorem step_selectBank {s : State} {v : Byte} {rest : List Input} (hrun : s.isHalted = false) (hv : v.toNat < 128)
    (hle : v.toNat % 16 ≤ 10) (hx : s.stream = .transaction (0x1000100#26 ||| v.setWidth 26) :: rest) :
    ∃ t, step s = .next t ∧ t.isHalted = false ∧ t.stream = rest ∧ t.regs.bankControl = BitVec.ofNat 4 v.toNat := by
  have hstep := register1WriteRule s v rest hrun hv hx
  rw [if_neg fun h => Nat.not_lt.mpr hle h.2] at hstep
  exact ⟨_, hstep, hrun, rfl, rfl⟩

/-- Settles O48: the write stores the code and leaves the device running, and the translation reads it. -/
theorem newBankAppliesAtOnce : Obligations.NewBankAppliesAtOnce := by
  intro s v a rest hrun hv hle hx
  obtain ⟨t, ht, hrun', hstream, hbank⟩ := step_selectBank hrun hv hle hx
  obtain ⟨p, r, hp, hr, hxlat⟩ := (translationRule t a rest hrun' hstream).1 (hbank ▸ hle)
  exact ⟨t, _, p, r, ht, hxlat, rfl, hbank ▸ hp, hr, rfl⟩

end Sys2Proof.Machine
end

section
/-!
PROOFS, family other, frames and the outside (R41, R52 to R56, R163, R180 to R188, R210, R211): which update changes what, how
the record and the log grow, what a recorded fault does not influence, and the ports. The theorems that settle O8, O40, O44 to
O47, O54, O57 to O59 stand at the end.
-/

namespace Sys2Proof.Machine

/-! ### The record and the log -/

/-- An operation leaves the record and the log, or its whole effect is one fault and a response (R181). -/
theorem exec_unfaulted_or_raised {i : Instr} {s t : State} (h : exec i s = .next t) :
    (t.fault = s.fault ∧ t.faultLog = s.faultLog) ∨ ∃ f x r, t = (s.raise f x).respond r := by
  rcases exec_cases h with ⟨r, rfl⟩ | ⟨led, -, rfl⟩ | ⟨c, k, d, b, -, -, rfl⟩ | hraise
  · exact .inl ⟨rfl, rfl⟩
  · exact .inl ⟨rfl, rfl⟩
  · exact .inl ⟨rfl, rfl⟩
  · exact .inr hraise

/-- No code of R180 is 0 or above 7. -/
theorem faultCode_bounds (f : FaultCause) : faultCode f ≠ 0 ∧ (faultCode f).toNat ≤ 7 := by
  cases f <;> decide

/-- The record of a log has a code exactly where the log has a fault. -/
theorem recordOf_code (l : List FaultEntry) :
    ((recordOf l).code = 0 ↔ (recordOf l).faulted = 0) ∧ (recordOf l).code.toNat ≤ 7 := by
  cases l with
  | nil => exact ⟨iff_of_true rfl rfl, Nat.zero_le 7⟩
  | cons e l =>
    obtain ⟨hne, hle⟩ := faultCode_bounds e.cause
    exact ⟨iff_of_false hne (show ¬ (1 : Bit) = 0 by decide), hle⟩

/-- Bit 7 of the status byte is the recovery flag (R40). -/
theorem statusByte_bit7 (d1 d4 : Bit) (b : BankCode) : (statusByte 1 d1 d4 b).getLsbD 7 = true := by
  revert d1 d4 b
  decide

/-! ### Which fields change -/

/-- `led` changes only by WR0, to its operand (R41). -/
theorem exec_led_changed {i : Instr} {s t : State} (h : exec i s = .next t) (hne : t.regs.led ≠ s.regs.led) :
    ∃ v, i = .wr0 v ∧ t.regs.led = v := by
  rcases exec_cases h with ⟨r, rfl⟩ | ⟨led, rfl, rfl⟩ | ⟨c, k, d, b, -, -, rfl⟩ | ⟨f, x, r, rfl⟩
  · exact absurd rfl hne
  · exact ⟨led, rfl, rfl⟩
  · exact absurd rfl hne
  · exact absurd rfl hne

/-- A change of `clock`, `chip_select`, `data_in` or `bank_control` is WR1, and its operands are the new values (R41). -/
theorem exec_control_changed {i : Instr} {s t : State} (h : exec i s = .next t)
    (hne : t.regs ≠ { s.regs with led := t.regs.led }) :
    i = .wr1 t.regs.clock t.regs.chipSelect t.regs.dataIn t.regs.bankControl := by
  rcases exec_cases h with ⟨r, rfl⟩ | ⟨led, -, rfl⟩ | ⟨c, k, d, b, rfl, -, rfl⟩ | ⟨f, x, r, rfl⟩
  · exact absurd rfl hne
  · exact absurd rfl hne
  · rfl
  · exact absurd rfl hne

/-- The record changes only by a first fault, to its code and info (R41, R182). -/
theorem exec_fault_changed {i : Instr} {s t : State} (h : exec i s = .next t) (hne : t.fault ≠ s.fault) :
    s.fault.faulted = 0 ∧ ∃ e, t.faultLog = s.faultLog ++ [e] ∧
      t.fault = { faulted := 1, code := faultCode e.cause, info := e.info } := by
  rcases exec_unfaulted_or_raised h with ⟨hfault, -⟩ | ⟨f, x, r, rfl⟩
  · exact absurd hfault hne
  · rcases bit_cases s.fault.faulted with hclear | hset
    · exact ⟨hclear, _, rfl, FaultRecord.record_of_clear hclear f x⟩
    · exact absurd (FaultRecord.record_of_set hset f x) hne

/-! ### What a recorded fault does not influence -/

/-- An operation does the same with any other record and log, but for how those two grow; a record that holds a fault
stays (R188). -/
theorem exec_withRecord {i : Instr} {s t : State} (h : exec i s = .next t) (f : FaultRecord) (l : List FaultEntry) :
    ∃ g m, exec i { s with fault := f, faultLog := l } = .next { t with fault := g, faultLog := m } ∧
      (f.faulted = 1 → g = f) := by
  have raised (c : FaultCause) (x : FaultInfo) (hf : f.faulted = 1) : f.record c x = f :=
    FaultRecord.record_of_set hf c x
  cases i with
  | wr0 led => cases h; exact ⟨_, _, rfl, fun _ => rfl⟩
  | wr0Rsv d => cases h; exact ⟨_, _, rfl, raised _ _⟩
  | wr1 c k d b =>
    simp only [exec, execWr1] at h ⊢
    split_ifs at h ⊢ <;> cases h
    · exact ⟨_, _, rfl, raised _ _⟩
    · exact ⟨_, _, rfl, fun _ => rfl⟩
  | wr1Rsv d => cases h; exact ⟨_, _, rfl, raised _ _⟩
  | wrUnknown idx d => cases h; exact ⟨_, _, rfl, raised _ _⟩
  | rd0 d => cases h; exact ⟨_, _, rfl, fun _ => rfl⟩
  | rd1 d => cases h; exact ⟨_, _, rfl, fun _ => rfl⟩
  | rdUnknown idx d => cases h; exact ⟨_, _, rfl, raised _ _⟩
  | xlat a =>
    rcases Nat.lt_or_ge 10 s.regs.bankControl.toNat with hgt | hle
    · rw [exec_xlat_of_lt hgt] at h
      rw [exec_xlat_of_lt (s := { s with fault := f, faultLog := l }) hgt]
      cases h
      exact ⟨_, _, rfl, raised _ _⟩
    · obtain ⟨r, hr⟩ := exec_xlat_of_le hle a
      rw [hr s rfl] at h
      rw [hr { s with fault := f, faultLog := l } rfl]
      cases h
      exact ⟨_, _, rfl, fun _ => rfl⟩
  | reservedKind3 w => cases h
  | applyMask p a =>
    cases hr : applyMask p a <;> simp only [exec, execApplyMask, hr] at h ⊢ <;> cases h
    · exact ⟨_, _, rfl, raised _ _⟩
    · exact ⟨_, _, rfl, fun _ => rfl⟩
  | maskForBank code =>
    cases hp : maskForBank code <;> simp only [exec, execMaskForBank, hp] at h ⊢ <;> cases h
    · exact ⟨_, _, rfl, raised _ _⟩
    · exact ⟨_, _, rfl, fun _ => rfl⟩

/-! ### Ports (R52, R53, R56) -/

theorem portIndex_add (base : Nat) {n : Nat} (h : n < 2 ^ 16) : portIndex base (base + n) = some (BitVec.ofNat 16 n) := by
  rw [portIndex, if_pos (by omega), Nat.add_sub_cancel_left]

theorem portIndex_outOfReach {base port : Nat} (h : port < base ∨ base + 2 ^ 16 ≤ port) : portIndex base port = none :=
  if_neg (by omega)

/-- `IN n` as a number. -/
theorem portReadWord_ofNat {n : Nat} (h : n < 2 ^ 16) :
    portReadWord (BitVec.ofNat 16 n) 0 = BitVec.ofNat 26 (n * 256) := by
  apply BitVec.eq_of_toNat_eq
  simp only [portReadWord, append_toNat, BitVec.ofNat_eq_ofNat, BitVec.toNat_ofNat]
  omega

/-- `OUT n, v` as a number. -/
theorem portWriteWord_ofNat {n : Nat} (h : n < 2 ^ 16) (v : Byte) :
    portWriteWord (BitVec.ofNat 16 n) v = BitVec.ofNat 26 (0x1000000 + n * 256 + v.toNat) := by
  apply BitVec.eq_of_toNat_eq
  simp only [portWriteWord, append_toNat, BitVec.toNat_ofNat]
  omega

/-- `XLAT a` as a number. -/
theorem translateWord_ofNat (a : FlashAddr) : translateWord a = BitVec.ofNat 26 (0x2000000 + a.toNat) := by
  apply BitVec.eq_of_toNat_eq
  simp only [translateWord, append_toNat, BitVec.toNat_ofNat]
  omega

/-! ### The obligations -/

/-- Settles O40: the frame of each update, and an operation makes at most one. -/
theorem operationFrame : Obligations.OperationFrame := by
  intro i s t h
  obtain ⟨hparams, hstream, hlines, hdraws⟩ := exec_keeps_outside h
  refine ⟨hparams, hstream, hlines, hdraws, exec_recoveryActive h, exec_led_of_not_wr0 h, fun hi => ?_, ?_⟩
  · rw [exec_regs_of_not_wr1 h hi]
    exact ⟨rfl, rfl, rfl, rfl⟩
  · rcases exec_unfaulted_or_raised h with hkept | ⟨f, x, r, rfl⟩
    · exact .inl hkept
    · exact .inr ⟨rfl, FaultRecord.record_faulted s.fault f x, _, rfl⟩

/-- Settles O44: an operation that adds to the log is one fault and a response. -/
theorem faultingOperationWritesNoRegister : Obligations.FaultingOperationWritesNoRegister := by
  intro i s t h hlog
  rcases exec_unfaulted_or_raised h with ⟨-, hkept⟩ | ⟨f, x, r, rfl⟩
  · exact absurd hkept hlog
  · exact ⟨rfl, _, rfl⟩

/-- Settles O45: only a fault reaches the record, and it enters a clear one only. -/
theorem recordKeepsTheFirstFault : Obligations.RecordKeepsTheFirstFault := by
  intro i s t h
  rcases exec_unfaulted_or_raised h with ⟨hfault, hlog⟩ | ⟨f, x, r, rfl⟩
  · refine ⟨fun _ => hfault, fun _ => hfault, fun e he => ?_⟩
    rw [hlog] at he
    simp at he
  · refine ⟨fun hset => FaultRecord.record_of_set hset f x, fun hlog => ?_, fun e he => ?_⟩
    · simp at hlog
    · obtain rfl : e = { cause := f, info := x } := by simpa using he.symm
      exact ⟨FaultRecord.record_faulted s.fault f x, fun hclear => FaultRecord.record_of_clear hclear f x⟩

/-- Settles O46: under CONTINUE the record does not halt the device, and no operation reads it. -/
theorem continueRunsAsIfNoFault : Obligations.ContinueRunsAsIfNoFault := by
  intro s t f l hcont h
  have hrun : State.isHalted { s with fault := f, faultLog := l } = false :=
    (State.not_isHalted_iff _).mpr (.inr hcont)
  obtain ⟨-, ⟨he, rfl⟩ | ⟨x, rest, hx, hexec⟩⟩ := step_cases h
  · exact ⟨f, l, step_idle hrun he, fun _ => rfl⟩
  · rw [step_cons hrun hx]
    exact exec_withRecord hexec f l

/-- Settles O47: an undefined code has no pattern, and only WR1 writes the code. -/
theorem undefinedBankPersists : Obligations.UndefinedBankPersists := by
  refine ⟨fun a s hgt => ⟨_, _, exec_xlat_undefinedBank hgt a, rfl, rfl⟩, fun i s t hgt h hwr1 => ?_⟩
  rcases exec_cases h with ⟨r, rfl⟩ | ⟨led, -, rfl⟩ | ⟨c, k, d, b, hi, -, rfl⟩ | ⟨f, x, r, rfl⟩
  · exact hgt
  · exact hgt
  · exact hwr1 c k d b hi
  · exact hgt

/-- Settles O54: the record is that of the log, and a register-1 read under HELD shows the recovery flag, which is 1. -/
theorem invariantBoundsCodeAndRecoveryBit : Obligations.InvariantBoundsCodeAndRecoveryBit := by
  intro s hinv
  obtain ⟨hcode, hle⟩ := recordOf_code s.faultLog
  rw [← hinv.record] at hcode hle
  refine ⟨hcode, hle, fun hheld v => ⟨_, _, exec_rd1 v s, rfl, ?_⟩⟩
  rw [recoveryFlag_held hheld, hinv.recovery]
  exact statusByte_bit7 _ _ _

/-- Settles O57: each output is a field, and each field has its writer. -/
theorem outputsChangeOnlyWithTheirFields : Obligations.OutputsChangeOnlyWithTheirFields := by
  refine ⟨fun s => ⟨rfl, rfl, rfl, rfl, rfl, rfl, rfl⟩, fun i s t h => ⟨exec_led_changed h, fun hne => ?_, fun hne => ?_⟩⟩
  · refine ⟨t.regs.bankControl, exec_control_changed h fun hregs => ?_⟩
    have hclock : t.regs.clock = s.regs.clock := by rw [hregs]
    have hselect : t.regs.chipSelect = s.regs.chipSelect := by rw [hregs]
    have hdata : t.regs.dataIn = s.regs.dataIn := by rw [hregs]
    simp [outputPorts, hclock, hselect, hdata] at hne
  · have hchanged : t.fault ≠ s.fault := by
      intro hfault
      simp [outputPorts, hfault] at hne
    obtain ⟨hclear, e, hlog, hfault⟩ := exec_fault_changed h hchanged
    exact ⟨hclear, congrArg FaultRecord.faulted hfault, e, hlog, congrArg FaultRecord.code hfault,
      congrArg FaultRecord.info hfault⟩

/-- Settles O58: a port within reach has its index, and the words of R70 are these numbers. -/
theorem portAccessesBecomeTransactions : Obligations.PortAccessesBecomeTransactions := by
  intro base
  refine ⟨fun n v hn => ⟨?_, ?_⟩, fun port nbytes hwidth => if_neg hwidth, fun port bytes hwidth => ?_,
    fun port v hport => ⟨?_, ?_⟩, fun a => ?_⟩
  · simp only [accessInput, if_true, portIndex_add base hn, portReadWord_ofNat hn]
  · simp only [accessInput, portIndex_add base hn, portWriteWord_ofNat hn]
  · match bytes, hwidth with
    | [], _ => rfl
    | [_], hwidth => exact absurd rfl hwidth
    | _ :: _ :: _, _ => rfl
  · simp only [accessInput, if_true, portIndex_outOfReach hport]
  · simp only [accessInput, portIndex_outOfReach hport]
  · rw [accessInput, translateWord_ofNat]

/-- Settles O8, field by field. -/
theorem attachState : Obligations.AttachState :=
  ⟨fun _ => ⟨rfl, rfl, rfl, rfl, rfl, rfl⟩, rfl⟩

/-- Settles O59: re-attachment is the attach state but for the three fields of the host's. -/
theorem reattachGivesTheResetState : Obligations.ReattachGivesTheResetState :=
  fun _ => ⟨rfl, rfl, rfl, rfl, rfl, rfl, rfl, rfl⟩

end Sys2Proof.Machine
end
